-- ==== Sys2Proof/Word.lean ====
section
/-! DEFINITION. The bit vectors of the block (spec/00_scope.md R15, R16): bit 0 is the least significant bit and
every value is unsigned. -/

namespace Sys2Proof

/-- A colour channel, the shift register, an opcode byte (R15: 8 bits). -/
abbrev Byte := BitVec 8

/-- A brightness level (R15: 5 bits). -/
abbrev Level5 := BitVec 5

/-- A command word on the wire (R67: 32 bits). -/
abbrev Word := BitVec 32

/-- The bits of an IEEE-754 binary64 number (R17, R58).
PRESUMED: the bit layout (sign, 11 exponent bits, 52 fraction bits) is IEEE-754's, which the spec names but does
not print (notes/assumptions/15.md). -/
abbrev Binary64 := BitVec 64

end Sys2Proof
end

