-- ==== Sys2Proof/Config.lean ====
section
/-! DEFINITION. What an implementation fixes (spec/00_scope.md R9 to R15) and the free values: opaque constants with no
body, so that no proof can learn a value of one. -/

namespace Sys2Proof

/-- R13: when a flush job reads the pixel buffer. -/
inductive FrameLatch where
  /-- `AT_START`: once, into the frame latch, at the job's `F_START` step. -/
  | atStart
  /-- `PER_PIXEL`: each record at its `F_PX_LOAD` step. -/
  | perPixel
  deriving DecidableEq, Repr

/-- R9: `N`, the pixel count; this hardware takes 8. -/
abbrev Config.pixels : Nat := 8

/-- R12: `INIT_BRIGHTNESS`; this hardware takes 7 (conflict C1). -/
def Config.initBrightness : Level5 := 7

/-- R13: `FRAME_LATCH`; this hardware takes `AT_START`. -/
def Config.frameLatch : FrameLatch := .atStart

/-- R14: `QDEPTH`, the capacity of the job queue; `none` is the unbounded queue this hardware takes. -/
def Config.queueDepth : Option Nat := none

/-- R15: clock pulses of the start frame. -/
def Config.sofPulses : Nat := 32

/-- R15, R119: clock pulses of the end frame, the same for every `N`. -/
def Config.eofPulses : Nat := 36

/-- R15: `HDR`, the constant OR-ed into the brightness byte. -/
def Config.header : Byte := 0xE0

/-- R11: the pin identifier of the clock line. Opaque: no rule depends on it (notes/assumptions/12.md). -/
opaque Config.clkPin : Nat

/-- R11: the pin identifier of the data line. Opaque: no rule depends on it (notes/assumptions/12.md). -/
opaque Config.datPin : Nat

/-- The hosts beyond host 0. Opaque: R10 leaves `HOSTS` open with a lower bound of 1 (notes/assumptions/12.md). -/
opaque Config.extraHosts : Nat

/-- R10: `HOSTS`, the number of host agents, at least 1. -/
def Config.hosts : Nat := Config.extraHosts + 1

/-- Free value (R145): whether the GPIO action that is the n-th draw fails (notes/assumptions/3.md). -/
opaque Config.actionFails : Nat → Bool

/-- Free value (R80): whether a mixed set of failing checks is reported as `E_TYPE` (notes/assumptions/4.md). -/
opaque Config.mixedErrorIsType : Nat → Bool

/-- Free value (R80): which failing operand of the reported kind `info` names (notes/assumptions/4.md). -/
opaque Config.pickOperand : Nat → Nat

/-- Free value (R50): which agent that has a step takes it (notes/assumptions/2.md). -/
opaque Config.pickAgent : Nat → Nat

/-- Free value: which reason is recorded where several refuse one command that does not decode (notes/assumptions/5.md). -/
opaque Config.pickRefusal : Nat → Nat

end Sys2Proof
end

