-- ==== Sys2Proof/Syntax.lean ====
section
/-! DEFINITION. The instructions: one constructor per row of spec/opcode_table.json, and the command record of
spec/30_encoding.md R57 they are decoded from. -/

namespace Sys2Proof

/-- R28, R141: the two output lines. -/
inductive Line where
  | clk
  | dat
  deriving DecidableEq, Repr

/-- R11: the pin identifier the acquire action of a line is given. -/
def Line.pin : Line → Nat
  | .clk => Config.clkPin
  | .dat => Config.datPin

/-- R58: what one operand slot of a command holds. -/
inductive HostValue where
  /-- `ABSENT`: missing, null or undefined. -/
  | absent
  /-- `NUM(x)`: a binary64 value, -0, the infinities and NaN included. -/
  | num (x : Binary64)
  /-- `BOOL(b)`. -/
  | bool (b : Bool)
  /-- `OTHER`: neither a number nor a boolean, for example a string. -/
  | other
  deriving DecidableEq, Repr

/-- R57: the agent that issues a command. -/
inductive Source where
  | host (h : Nat)
  | exitSrc
  deriving DecidableEq, Repr

/-- R57: a command as it arrives on the command port, `(src, op, a[0..4])`. -/
structure RawCommand where
  src : Source
  op : Byte
  a0 : HostValue := .absent
  a1 : HostValue := .absent
  a2 : HostValue := .absent
  a3 : HostValue := .absent
  a4 : HostValue := .absent
  deriving DecidableEq, Repr

/-- The instructions. The ten commands of R60 carry their issuing agent and their operand slots; the wire frames are
R67, R69 and R70; the GPIO events are R77. -/
inductive Instr where
  /-- CLEAR, R84. -/
  | clear (src : Source)
  /-- GET_PIXEL, R85. -/
  | getPixel (src : Source) (index : HostValue)
  /-- SET_ALL, R88. -/
  | setAll (src : Source) (red green blue brightness : HostValue)
  /-- SET_PIXEL, R90. -/
  | setPixel (src : Source) (index red green blue brightness : HostValue)
  /-- SET_BRIGHTNESS, R92. -/
  | setBrightness (src : Source) (brightness : HostValue)
  /-- SET_CLEAR_ON_EXIT, R121. -/
  | setClearOnExit (src : Source) (flag : HostValue)
  /-- SHOW, R96. -/
  | showFrame (src : Source)
  /-- PIXEL_COUNT, R94. -/
  | pixelCount (src : Source)
  /-- RELEASE, R122. -/
  | release (src : Source)
  /-- EXIT, R127. -/
  | exit (src : Source)
  /-- SOF, the start frame, R69. -/
  | sof
  /-- LEDW, one pixel's command word, R67: brightness, blue, green, red. -/
  | ledw (br : Level5) (b g r : Byte)
  /-- EOF, the end frame, R70. -/
  | eof
  /-- GPIO_ACQ, the acquire action, R142. -/
  | gpioAcq (line : Line)
  /-- GPIO_WR, the write action, R143. -/
  | gpioWr (line : Line) (level : Bool)
  /-- GPIO_REL, the release action, R144. -/
  | gpioRel (line : Line)
  deriving DecidableEq, Repr

end Sys2Proof
end

