-- ==== Sys2Proof/WellFormed.lean ====
section
/-! DEFINITION. Which instructions exist: an issuing host's identifier is one of `0..HOSTS-1` (spec/60_exceptions.md
R152). Every other field is of exactly the width its encoding gives it, so no other check is needed. -/

namespace Sys2Proof

/-- R152: the agent exists. The step does not test it (notes/assumptions/24.md). -/
def Source.exists? : Source → Bool
  | .host h => decide (h < Config.hosts)
  | .exitSrc => true

/-- The agent that issues an instruction; the wire frames and GPIO actions are the encoder's own. -/
def Instr.source? : Instr → Option Source
  | .clear src => some src
  | .getPixel src _ => some src
  | .setAll src _ _ _ _ => some src
  | .setPixel src _ _ _ _ _ => some src
  | .setBrightness src _ => some src
  | .setClearOnExit src _ => some src
  | .showFrame src => some src
  | .pixelCount src => some src
  | .release src => some src
  | .exit src => some src
  | .sof => none
  | .ledw _ _ _ _ => none
  | .eof => none
  | .gpioAcq _ => none
  | .gpioWr _ _ => none
  | .gpioRel _ => none

/-- A well-formed instruction is issued by an agent that exists. -/
def Instr.wellFormed (i : Instr) : Bool :=
  match i.source? with
  | some src => src.exists?
  | none => true

end Sys2Proof
end

