-- ==== Sys2Proof/Decode.lean ====
section
/-! DEFINITION. The decoder of the three encodings of spec/30_encoding.md (command port R57 to R60, wire R67 to R70,
GPIO events R77), total and refusing by name, and after it the encoder written from the same tables. -/

namespace Sys2Proof

/-- Why a word is no instruction. -/
inductive DecodeError where
  /-- R73: an opcode byte outside 0x01 to 0x0A. -/
  | reservedOpcode
  /-- R59: a slot at or above the opcode's arity is not `ABSENT`. -/
  | beyondArity
  /-- R75: a 32-bit wire word that is neither all zero nor headed by 0b111. -/
  | reservedWireWord
  /-- R70: a 36-bit wire word that is not all zero. -/
  | notEndFrame
  /-- R77: kind 0b11, or `val` 1 in an acquire or release form. -/
  | malformedGpioEvent
  deriving DecidableEq, Repr

/-- A word of one of the formats HCMD, WIRE32, WIRE36 and GPIOEV. -/
inductive Encoded where
  | command (c : RawCommand)
  | wire32 (w : Word)
  | wire36 (w : BitVec 36)
  | gpioEvent (e : BitVec 4)
  deriving DecidableEq, Repr

/-- R60: the number of operand slots of an opcode. -/
def arity (op : Byte) : Option Nat :=
  match op.toNat with
  | 0x01 => some 0
  | 0x02 => some 1
  | 0x03 => some 4
  | 0x04 => some 5
  | 0x05 => some 1
  | 0x06 => some 1
  | 0x07 => some 0
  | 0x08 => some 0
  | 0x09 => some 0
  | 0x0A => some 0
  | _ => none

/-- The operand slots of a command, in order. -/
def RawCommand.slots (c : RawCommand) : List HostValue := [c.a0, c.a1, c.a2, c.a3, c.a4]

/-- R59: every slot numbered `n` or above is `ABSENT`. -/
def RawCommand.absentFrom (c : RawCommand) (n : Nat) : Bool :=
  (c.slots.drop n).all (· == .absent)

/-- R60: the instruction an opcode names, its slots taken as they come; none for a reserved opcode (R73). -/
def instrOfOpcode (c : RawCommand) : Option Instr :=
  match c.op.toNat with
  | 0x01 => some (.clear c.src)
  | 0x02 => some (.getPixel c.src c.a0)
  | 0x03 => some (.setAll c.src c.a0 c.a1 c.a2 c.a3)
  | 0x04 => some (.setPixel c.src c.a0 c.a1 c.a2 c.a3 c.a4)
  | 0x05 => some (.setBrightness c.src c.a0)
  | 0x06 => some (.setClearOnExit c.src c.a0)
  | 0x07 => some (.showFrame c.src)
  | 0x08 => some (.pixelCount c.src)
  | 0x09 => some (.release c.src)
  | 0x0A => some (.exit c.src)
  | _ => none

/-- R57 to R60, R73: decoding a command record. -/
def decodeCommand (c : RawCommand) : Except DecodeError Instr :=
  match instrOfOpcode c, arity c.op with
  | some i, some n => if c.absentFrom n then .ok i else .error .beyondArity
  | _, _ => .error .reservedOpcode

/-- R67, R69, R75: decoding a 32-bit wire word. -/
def decodeWire32 (w : Word) : Except DecodeError Instr :=
  if w = 0 then .ok .sof
  else if w.extractLsb' 29 3 = 0b111 then
    .ok (.ledw (w.extractLsb' 24 5) (w.extractLsb' 16 8) (w.extractLsb' 8 8) (w.extractLsb' 0 8))
  else .error .reservedWireWord

/-- R70: decoding a 36-bit wire word. -/
def decodeWire36 (w : BitVec 36) : Except DecodeError Instr :=
  if w = 0 then .ok .eof else .error .notEndFrame

/-- R77: the line a GPIO event names. -/
def lineOfBit (b : Bool) : Line := if b then .dat else .clk

/-- R77: decoding `{kind[1:0], line, val}`. -/
def decodeGpioEvent (e : BitVec 4) : Except DecodeError Instr :=
  match (e.extractLsb' 2 2).toNat, e.getLsbD 0 with
  | 0, false => .ok (.gpioAcq (lineOfBit (e.getLsbD 1)))
  | 1, v => .ok (.gpioWr (lineOfBit (e.getLsbD 1)) v)
  | 2, false => .ok (.gpioRel (lineOfBit (e.getLsbD 1)))
  | _, _ => .error .malformedGpioEvent

/-- The decoder, total on every word of every format. -/
def decode : Encoded → Except DecodeError Instr
  | .command c => decodeCommand c
  | .wire32 w => decodeWire32 w
  | .wire36 w => decodeWire36 w
  | .gpioEvent e => decodeGpioEvent e

/-- R77: the bit of a line. -/
def lineBit : Line → Bool
  | .clk => false
  | .dat => true

/-- R67: the fields of a command word, header first. -/
def ledWordBits (br : Level5) (b g r : Byte) : Word := (0b111#3 ++ br ++ b ++ g ++ r : BitVec 32)

/-- R77: `{kind, line, val}`. -/
def gpioEventBits (kind : BitVec 2) (l : Line) (val : Bool) : BitVec 4 :=
  (kind ++ BitVec.ofBool (lineBit l) ++ BitVec.ofBool val : BitVec 4)

/-- The encoder, from the tables of R60, R67, R69, R70 and R77. -/
def encode : Instr → Encoded
  | .clear src => .command { src, op := 0x01 }
  | .getPixel src i => .command { src, op := 0x02, a0 := i }
  | .setAll src r g b br => .command { src, op := 0x03, a0 := r, a1 := g, a2 := b, a3 := br }
  | .setPixel src i r g b br => .command { src, op := 0x04, a0 := i, a1 := r, a2 := g, a3 := b, a4 := br }
  | .setBrightness src br => .command { src, op := 0x05, a0 := br }
  | .setClearOnExit src v => .command { src, op := 0x06, a0 := v }
  | .showFrame src => .command { src, op := 0x07 }
  | .pixelCount src => .command { src, op := 0x08 }
  | .release src => .command { src, op := 0x09 }
  | .exit src => .command { src, op := 0x0A }
  | .sof => .wire32 0
  | .ledw br b g r => .wire32 (ledWordBits br b g r)
  | .eof => .wire36 0
  | .gpioAcq l => .gpioEvent (gpioEventBits 0b00 l false)
  | .gpioWr l v => .gpioEvent (gpioEventBits 0b01 l v)
  | .gpioRel l => .gpioEvent (gpioEventBits 0b10 l false)

/-- The format of a word given only by its width and its bits, as spec/opcode_table.json numbers them: 8 bits are an
HCMD opcode byte (from host 0, every slot `ABSENT`) where the opcode map has that opcode; 4 bits, or 8 bits that are no
opcode and whose low 4 are a GPIOEV form (only 0x00), are a GPIOEV form; 32 bits are WIRE32; 36 bits, or the 40 of its whole bytes, are WIRE36.
DESIGN CHOICE: the table gives the formats HCMD and GPIOEV overlapping words (notes/assumptions/10.md). -/
def encodedOfTableWord (nbits w : Nat) : Option Encoded :=
  match nbits with
  | 4 => if w < 2 ^ 4 then some (.gpioEvent (BitVec.ofNat 4 w)) else none
  | 8 =>
    if w < 2 ^ 8 then
      match arity (BitVec.ofNat 8 w) with
      | some _ => some (.command { src := .host 0, op := BitVec.ofNat 8 w })
      | none =>
        if w < 2 ^ 4 ∧ (decodeGpioEvent (BitVec.ofNat 4 w)).toBool then some (.gpioEvent (BitVec.ofNat 4 w))
        else some (.command { src := .host 0, op := BitVec.ofNat 8 w })
    else none
  | 32 => if w < 2 ^ 32 then some (.wire32 (BitVec.ofNat 32 w)) else none
  | 36 => if w < 2 ^ 36 then some (.wire36 (BitVec.ofNat 36 w)) else none
  | 40 => if w < 2 ^ 36 then some (.wire36 (BitVec.ofNat 36 w)) else none
  | _ => none

/-- The instruction the decoder reads from a word of the opcode table; none where it refuses. -/
def decodeTableWord (nbits w : Nat) : Option Instr :=
  match encodedOfTableWord nbits w with
  | some e => (decode e).toOption
  | none => none

end Sys2Proof
end

