-- ==== Sys2Proof/Machine/State.lean ====
section
/-! DEFINITION. The machine's state (spec/10_state.md R21 to R40), the events of its trace, and the reasons a step can
stop. -/

namespace Sys2Proof.Machine

/-- R24: one pixel record. -/
structure Pixel where
  r : Byte
  g : Byte
  b : Byte
  br : Level5
  deriving DecidableEq, Repr

/-- R24, R33: an array of exactly `N` pixel records. -/
abbrev Pixels := Vector Pixel Config.pixels

/-- R28: the block's hold on a line. -/
inductive HandleState where
  /-- `UNACQ`: never acquired, or every acquisition so far failed. -/
  | unacq
  /-- `ACQ`: acquired as a digital output. -/
  | acq
  /-- `REL`: released, for good. -/
  | rel
  deriving DecidableEq, Repr

/-- R29: the level the block last drove on a line. -/
inductive Level where
  /-- `Z`: not driven by the block. -/
  | z
  /-- Level 0. -/
  | low
  /-- Level 1. -/
  | high
  /-- `X`: unknown, the last write or release failed. -/
  | x
  deriving DecidableEq, Repr

/-- R31: the encoder's state register. -/
inductive Phase where
  | idle
  | fStart
  | fAcqClk
  | fAcqDat
  | fSofDat
  | fSofHi
  | fSofLo
  | fPxLoad
  | fBitDat
  | fBitHi
  | fBitLo
  | fEofDat
  | fEofHi
  | fEofLo
  | fDone
  | rClk
  | rDat
  | rDone
  | xDone
  deriving DecidableEq, Repr

/-- R34: who asked for a job, `HOST(h)` or `EXIT`. -/
inductive Origin where
  | host (h : Nat)
  | exit
  deriving DecidableEq, Repr

/-- R34: a unit of encoder work; `t` is its ticket (R35). -/
inductive Job where
  | flush (t : Nat) (o : Origin)
  | release (t : Nat) (o : Origin)
  | exitMark
  deriving DecidableEq, Repr

/-- R36: the exit sequence. -/
inductive ExitState where
  /-- `NONE`: EXIT not accepted yet. -/
  | notStarted
  /-- `RUNNING`: its jobs are queued or executing. -/
  | running
  /-- `DONE`: the exit marker job has executed. -/
  | done
  deriving DecidableEq, Repr

/-- R147: why a command was refused. -/
inductive RefReason where
  /-- `REF_OPCODE`, R73. -/
  | opcode
  /-- `REF_ARITY`, R59. -/
  | arity
  /-- `REF_BOOL`, R65. -/
  | bool
  /-- `REF_AFTER_EXIT`, R146. -/
  | afterExit
  deriving DecidableEq, Repr

/-- R145: the answer of the GPIO oracle to one action. -/
inductive GpioOutcome where
  | ok
  | fail
  deriving DecidableEq, Repr

/-- R132: the kinds of a validation error. -/
inductive ErrKind where
  /-- `E_TYPE`, R133. -/
  | type
  /-- `E_RANGE`, R134. -/
  | range
  deriving DecidableEq, Repr

/-- R61 to R64: the operand name a failing check records. -/
inductive OperandName where
  | index
  | colour
  | brightness
  deriving DecidableEq, Repr

/-- R132: the causes of a hardware I/O error. -/
inductive IoCause where
  | writeFailed (l : Line)
  | acquireFailed (l : Line)
  | notAcquired
  | releaseFailed (l : Line)
  deriving DecidableEq, Repr

/-- R38: how a job completed. -/
inductive Status where
  | ok
  | err (cause : IoCause)
  deriving DecidableEq, Repr

/-- R38, R60: the command an event reports on. -/
inductive Op where
  | clear
  | getPixel
  | setAll
  | setPixel
  | setBrightness
  | setClearOnExit
  | showFrame
  | pixelCount
  | release
  | exit
  deriving DecidableEq, Repr

/-- R38: the value a command returns. -/
inductive RetVal where
  /-- `()`. -/
  | unit
  /-- GET_PIXEL's list of four (R85): the colours, and the brightness fraction as the host receives it (R86). -/
  | pixel (r g b : Byte) (fraction : Binary64)
  /-- The ticket of SHOW and RELEASE (R96, R122). -/
  | ticket (t : Nat)
  /-- PIXEL_COUNT's count (R94). -/
  | count (n : Nat)
  deriving DecidableEq, Repr

/-- R38: the events of the observable trace. RET and ERR name the issuing agent as the command record does. -/
inductive Event where
  | acq (l : Line) (o : GpioOutcome)
  | wr (l : Line) (v : Bool) (o : GpioOutcome)
  | rel (l : Line) (o : GpioOutcome)
  | done (t : Nat) (st : Status)
  | ret (src : Source) (op : Op) (val : RetVal)
  | err (src : Source) (op : Op) (kind : ErrKind) (info : OperandName)
  | exited
  deriving DecidableEq, Repr

/-- R21: the state tuple, and after it the model's own fields `port`, `answers`, `draws` and `turn`, which hold what R22
calls the parameters of the step relation. -/
structure State where
  /-- R24: the pixel buffer. -/
  buf : Pixels
  /-- R27. -/
  clearOnExit : Bool
  /-- R28: `hs[CLK]`. -/
  hsClk : HandleState
  /-- R28: `hs[DAT]`. -/
  hsDat : HandleState
  /-- R29: `lvl[CLK]`. -/
  lvlClk : Level
  /-- R29: `lvl[DAT]`. -/
  lvlDat : Level
  /-- R31. -/
  phase : Phase
  /-- R32: clock pulses issued in the current framing phase. -/
  cnt : Nat
  /-- R32: index of the pixel whose word is being sent. -/
  p : Nat
  /-- R32: index of the byte within the word. -/
  k : Nat
  /-- R32: bits of the current byte already sent. -/
  j : Nat
  /-- R32: the byte being shifted out. -/
  sr : Byte
  /-- R32: the current pixel's command word. -/
  w : Word
  /-- R32: `none`, or the line L of `IO_RELEASE_FAILED(L)`. -/
  rerr : Option Line
  /-- R33: the buffer snapshot. -/
  latch : Pixels
  /-- R34: the FIFO of jobs, head first. -/
  queue : List Job
  /-- R34: the job being executed. -/
  cur : Option Job
  /-- R35. -/
  nextTicket : Nat
  /-- R36. -/
  xs : ExitState
  /-- R37. -/
  refused : Option RefReason
  /-- R38: oldest event first. -/
  trace : List Event
  /-- The commands the hosts and EXITSRC have still to issue; those of one agent stand in its program order
  (notes/assumptions/1.md). -/
  port : List RawCommand
  /-- GPIO outcomes settled in advance, next first; when none is left the outcome is a free value
  (notes/assumptions/3.md). -/
  answers : List GpioOutcome
  /-- Index of the next free value drawn (notes/assumptions/3.md). -/
  draws : Nat
  /-- Agent steps taken so far, the index of the next free choice of an agent (notes/assumptions/2.md). -/
  turn : Nat
  deriving DecidableEq, Repr

/-- Why the machine stops with a fault. Every one guards a case the rules exclude; none is reached from a state that meets
`Sys2Proof.Safety.Inv`. -/
inductive Fault where
  /-- Raised by a GPIO write on a line whose handle is not `ACQ`: R143 issues it only on an acquired line. Safe. -/
  | lineNotAcquired (l : Line)
  /-- Raised by a GPIO acquire of a released line: R28 gives it no transition. Safe. -/
  | lineReleased (l : Line)
  /-- Raised by a phase whose `cur` is not a job of its kind: R95 to R129 give such a pair no step. Safe. -/
  | wrongJob
  /-- Raised by `F_PX_LOAD` with `p` at or above `N`: R41 gives the buffer no such address. Safe. -/
  | pixelOutOfRange
  deriving DecidableEq, Repr

/-- Why a step has no meaning. -/
inductive Refusal where
  /-- An instruction with no meaning yet, by its mnemonic. No arm of exec answers with it. Safe. -/
  | notModelled (mnemonic : String)
  /-- Raised by every step and instruction once a command was refused: R147, no agent has a step. Safe. -/
  | alreadyRefused (r : RefReason)
  /-- Raised by an instruction other than EXIT given after the exit sequence ended: R146, no agent has a step. Safe. -/
  | terminated
  /-- Raised by SOF, LEDW and EOF when the encoder is in no phase of that frame: R101 to R110 give no step. Safe. -/
  | notAtFrame
  /-- Raised by LEDW in a bit phase when its fields are not those of the word in `w` (R104 loads it). Safe. -/
  | otherWord
  /-- Raised by a bit phase whose `w` has no 0b111 header: R75, such a word is never sent. Safe. -/
  | malformedWord
  deriving DecidableEq, Repr

/-- The outcome of a step of this machine. -/
abbrev Result := Host.Outcome State Fault Refusal

/-- R39: the state after reset. The last four fields are the model's own (DESIGN CHOICE, notes/assumptions/13.md). -/
def State.reset : State where
  buf := Vector.replicate Config.pixels ⟨0, 0, 0, Config.initBrightness⟩
  clearOnExit := true
  hsClk := .unacq
  hsDat := .unacq
  lvlClk := .z
  lvlDat := .z
  phase := .idle
  cnt := 0
  p := 0
  k := 0
  j := 0
  sr := 0
  w := 0
  rerr := none
  latch := Vector.replicate Config.pixels ⟨0, 0, 0, 0⟩
  queue := []
  cur := none
  nextTicket := 0
  xs := .notStarted
  refused := none
  trace := []
  port := []
  answers := []
  draws := 0
  turn := 0

end Sys2Proof.Machine
end

