-- ==== Sys2Proof/Machine/Binary64.lean ====
section
/-! DEFINITION. Binary64 numbers (spec/00_scope.md R17): every finite one is a whole number of units of 2^-1074, so that
comparison, floor and correctly rounded arithmetic are exact natural-number arithmetic on units. -/

namespace Sys2Proof.Machine

/-- The number of units of 2^-1074 in 1. -/
def oneUnits : Nat := 2 ^ 1074

/-- What the bits of a binary64 number say: NaN, an infinity, or a sign and a count of units. -/
inductive FpValue where
  | nan
  | inf (neg : Bool)
  | finite (neg : Bool) (units : Nat)
  deriving DecidableEq, Repr

/-- The value of a binary64 number: exponent field 2047 is NaN or an infinity, 0 is zero or subnormal. -/
def fpValue (x : Binary64) : FpValue :=
  let e := (x.extractLsb' 52 11).toNat
  let m := (x.extractLsb' 0 52).toNat
  if e = 2047 then
    if m = 0 then .inf x.msb else .nan
  else if e = 0 then .finite x.msb m
  else .finite x.msb ((2 ^ 52 + m) <<< (e - 1))

/-- The binary64 number nearest to `num / den` units, ties to even, as a count of units (`den` positive): 53 significant
bits are kept. -/
def roundUnits (num den : Nat) : Nat :=
  let sh := Nat.log2 (num / den) - 52
  let d := den <<< sh
  let m := num / d
  let r := num % d
  let up := if 2 * r < d then 0 else if d < 2 * r then 1 else m % 2
  (m + up) <<< sh

/-- The bits of the non-negative binary64 number of `u` units, `u` a count of at most 53 significant bits below the
overflow threshold. -/
def packUnits (u : Nat) : Binary64 :=
  if u < 2 ^ 52 then BitVec.ofNat 64 u
  else
    let sh := Nat.log2 u - 52
    BitVec.ofNat 64 (((sh + 1) <<< 52) + ((u >>> sh) - 2 ^ 52))

/-- R17: `floor(x)` of a non-negative finite number. -/
def floorUnits (u : Nat) : Nat := u / oneUnits

/-- R17: `isInteger(x)` of a finite number. -/
def isIntegerUnits (u : Nat) : Bool := u % oneUnits == 0

/-- R17, R66: `31 ⊗ x` of a non-negative finite number at most 1, in units. -/
def times31Units (u : Nat) : Nat := roundUnits (31 * u) 1

end Sys2Proof.Machine
end

