-- ==== Sys2Proof/Machine/Operands.lean ====
section
/-! DEFINITION. Operand decoding and quantizers (spec/30_encoding.md R61 to R66), the combination of checks and the
brightness conversions (spec/40_buffer_ops.md R80, R82, R86), and command-word assembly (R68). -/

namespace Sys2Proof.Machine

/-- A failing check: its error kind and the operand it names (R61 to R64). -/
structure Failure where
  kind : ErrKind
  info : OperandName
  deriving DecidableEq, Repr

/-- The result of the checks of one or more operands: `ok(v)`, or the failures, at least one. -/
inductive Checked (α : Type) where
  | ok (v : α)
  | bad (first : Failure) (rest : List Failure)
  deriving DecidableEq, Repr

/-- R80: the failing checks. -/
def failuresOf {α : Type} : Checked α → List Failure
  | .ok _ => []
  | .bad f fs => f :: fs

/-- R80: every check is evaluated; the pair is `ok` when both are, and otherwise holds the failures of both. -/
def bothChecked {α β : Type} (a : Checked α) (b : Checked β) : Checked (α × β) :=
  match a, b with
  | .ok x, .ok y => .ok (x, y)
  | .ok _, .bad f fs => .bad f fs
  | .bad f fs, .ok _ => .bad f fs
  | .bad f fs, .bad g gs => .bad f (fs ++ g :: gs)

/-- R17: whether a finite number with this sign and count of units is `>= 0`; -0 is. -/
def atLeastZero (neg : Bool) (u : Nat) : Bool := !neg || u == 0

/-- R61: `chkIndex`. -/
def chkIndex (a : HostValue) : Checked (Fin Config.pixels) :=
  match a with
  | .absent => .bad ⟨.type, .index⟩ []
  | .bool _ => .bad ⟨.type, .index⟩ []
  | .other => .bad ⟨.type, .index⟩ []
  | .num x =>
    match fpValue x with
    | .finite neg u =>
      if h : (isIntegerUnits u && atLeastZero neg u) = true ∧ floorUnits u < Config.pixels then
        .ok ⟨floorUnits u, h.2⟩
      else .bad ⟨.range, .index⟩ []
    | .inf _ => .bad ⟨.range, .index⟩ []
    | .nan => .bad ⟨.range, .index⟩ []

/-- R66: `col8(x) = floor(x) & 0xFF` of a validated colour of `u` units. -/
def col8 (u : Nat) : Byte := BitVec.ofNat 8 (floorUnits u)

/-- R66: `br5(x) = floor(31 ⊗ x) & 0x1F` of a validated brightness of `u` units. -/
def br5 (u : Nat) : Level5 := BitVec.ofNat 5 (floorUnits (times31Units u))

/-- R62: `chkColour`. -/
def chkColour (a : HostValue) : Checked Byte :=
  match a with
  | .absent => .bad ⟨.type, .colour⟩ []
  | .bool _ => .bad ⟨.type, .colour⟩ []
  | .other => .bad ⟨.type, .colour⟩ []
  | .num x =>
    match fpValue x with
    | .finite neg u =>
      if atLeastZero neg u = true ∧ u ≤ 255 * oneUnits then .ok (col8 u) else .bad ⟨.range, .colour⟩ []
    | .inf _ => .bad ⟨.range, .colour⟩ []
    | .nan => .bad ⟨.range, .colour⟩ []

/-- The numeric case R63 and R64 share. -/
def chkBrNum (x : Binary64) : Checked Level5 :=
  match fpValue x with
  | .finite neg u =>
    if atLeastZero neg u = true ∧ u ≤ oneUnits then .ok (br5 u) else .bad ⟨.range, .brightness⟩ []
  | .inf _ => .bad ⟨.range, .brightness⟩ []
  | .nan => .bad ⟨.range, .brightness⟩ []

/-- R64: `chkBrReq`. -/
def chkBrReq (a : HostValue) : Checked Level5 :=
  match a with
  | .absent => .bad ⟨.type, .brightness⟩ []
  | .bool _ => .bad ⟨.type, .brightness⟩ []
  | .other => .bad ⟨.type, .brightness⟩ []
  | .num x => chkBrNum x

/-- R63: `chkBrOpt`; `none` is `keep`. -/
def chkBrOpt (a : HostValue) : Checked (Option Level5) :=
  match a with
  | .absent => .ok none
  | .bool _ => .bad ⟨.type, .brightness⟩ []
  | .other => .bad ⟨.type, .brightness⟩ []
  | .num x =>
    match chkBrNum x with
    | .ok n => .ok (some n)
    | .bad f fs => .bad f fs

/-- R65: `chkBoolOpt`; `none` is the refusal `REF_BOOL`. -/
def chkBoolOpt (a : HostValue) : Option Bool :=
  match a with
  | .absent => some true
  | .bool b => some b
  | .num _ => none
  | .other => none

/-- R82: `applyBr`. -/
def applyBr (old : Level5) (v : Option Level5) : Level5 :=
  match v with
  | none => old
  | some n => n

/-- R86: `round3(br/31)` as a pair `(m, d)` that stands for the decimal `m * 10^-d`: `d = 2 - e` with
`e = floor(log10(br/31))`, and `m` the quotient `br * 10^d / 31` rounded half up. -/
def round3 (br : Level5) : Nat × Nat :=
  let n := br.toNat
  let d := if n = 0 then 0 else if 31 ≤ n then 2 else if 31 ≤ 10 * n then 3 else 4
  ((2 * (n * 10 ^ d) + 31) / 62, d)

/-- R86: the binary64 number nearest to `round3(br/31)`, which is what the host receives. -/
def brightnessFraction (br : Level5) : Binary64 :=
  let q := round3 br
  packUnits (roundUnits (q.1 * oneUnits) (10 ^ q.2))

/-- R68: `word(q)`. -/
def ledWord (q : Pixel) : Word :=
  ((Config.header ||| q.br.setWidth 8).setWidth 32 <<< 24) ||| (q.b.setWidth 32 <<< 16) |||
    (q.g.setWidth 32 <<< 8) ||| q.r.setWidth 32

/-- R68: `byteOf(word, k) = word[31-8k : 24-8k]`, for `k` in 0..3. -/
def byteOf (w : Word) (k : Nat) : Byte := w.extractLsb' (24 - 8 * k) 8

end Sys2Proof.Machine
end

