-- ==== Sys2Proof/Machine/Ops.lean ====
section
/-! DEFINITION. The named operations the meanings share: the pixel buffer, the job queue, the GPIO device, raising an error,
ending a job, refusing and accepting a command (spec/00_scope.md R18, spec/60_exceptions.md R132 to R147). -/

namespace Sys2Proof.Machine

/-- R18: `Emit(ev)`. -/
def emit (e : Event) (s : State) : State := { s with trace := s.trace ++ [e] }

/-- One of `a :: rest`, the choice free where there is one. -/
def pickFrom {α : Type} (a : α) (rest : List α) (n : Nat) : α :=
  match rest with
  | [] => a
  | b :: more => (a :: b :: more).getD (n % (more.length + 2)) a

/-! ### The pixel buffer -/

/-- R18, R44: `BufWrite(i, q)`. -/
def bufWrite (i : Fin Config.pixels) (q : Pixel) (s : State) : State := { s with buf := s.buf.set i q }

/-- R44: one function applied to every record, index by index. -/
def mapPixels (f : Pixel → Pixel) (v : Pixels) : Pixels := Vector.ofFn fun i => f v[i]

/-- R84: the colours to 0, the brightness kept. -/
def blackened (q : Pixel) : Pixel := { q with r := 0, g := 0, b := 0 }

/-- R84, R127: every record's colours to 0. -/
def clearColours (s : State) : State := { s with buf := mapPixels blackened s.buf }

/-! ### The GPIO device -/

/-- R28: `hs[L]`. -/
def State.hs (s : State) : Line → HandleState
  | .clk => s.hsClk
  | .dat => s.hsDat

/-- R29: `lvl[L]`. -/
def State.lvl (s : State) : Line → Level
  | .clk => s.lvlClk
  | .dat => s.lvlDat

/-- R28: `hs[L] <- h`. -/
def setHs (l : Line) (h : HandleState) (s : State) : State :=
  match l with
  | .clk => { s with hsClk := h }
  | .dat => { s with hsDat := h }

/-- R29: `lvl[L] <- v`. -/
def setLvl (l : Line) (v : Level) (s : State) : State :=
  match l with
  | .clk => { s with lvlClk := v }
  | .dat => { s with lvlDat := v }

/-- R145: the outcome of the next GPIO action: the next one settled in advance, and where none is, a free value. -/
def gpioAnswer (s : State) : GpioOutcome :=
  match s.answers with
  | o :: _ => o
  | [] => if Config.actionFails s.draws then .fail else .ok

/-- The draw of one GPIO outcome used up. -/
def afterDraw (s : State) : State := { s with answers := s.answers.tail, draws := s.draws + 1 }

/-- R29, R143: the level of a driven line. -/
def levelOf (v : Bool) : Level := if v then .high else .low

/-- R142: `GpioAcquire(L)`. -/
def gpioAcquire (l : Line) (s : State) : State := emit (.acq l (gpioAnswer s)) (afterDraw s)

/-- R143: `GpioWrite(L, v)`. -/
def gpioWrite (l : Line) (v : Bool) (s : State) : State :=
  setLvl l (match gpioAnswer s with | .ok => levelOf v | .fail => .x) (emit (.wr l v (gpioAnswer s)) (afterDraw s))

/-- R144: `GpioRelease(L)`. -/
def gpioRelease (l : Line) (s : State) : State := emit (.rel l (gpioAnswer s)) (afterDraw s)

/-- R99, R100, R142: the acquire action with what its caller writes: on `ok` the handle is `ACQ` and the line driven low. -/
def acquireLine (l : Line) (s : State) : State :=
  match gpioAnswer s with
  | .ok => setLvl l .low (setHs l .acq (gpioAcquire l s))
  | .fail => gpioAcquire l s

/-- R123, R144: the release action with what its caller writes: the handle is `REL` in either case. -/
def releaseLine (l : Line) (s : State) : State :=
  setLvl l (match gpioAnswer s with | .ok => .z | .fail => .x) (setHs l .rel (gpioRelease l s))

/-! ### Jobs -/

/-- R34: a job at the tail of the queue. -/
def enqueue (j : Job) (s : State) : State := { s with queue := s.queue ++ [j] }

/-- R35: the current ticket taken. -/
def takeTicket (s : State) : State := { s with nextTicket := s.nextTicket + 1 }

/-- R34: the origin of a job asked for by an agent. -/
def originOf : Source → Origin
  | .host h => .host h
  | .exitSrc => .exit

/-- R14, R97: the queue holds `QDEPTH` jobs. -/
def queueFull (depth : Option Nat) (s : State) : Bool :=
  match depth with
  | none => false
  | some d => decide (d ≤ s.queue.length)

/-- R111, R112, R125: the job of ticket `t` completes with status `st`. -/
def endJob (t : Nat) (st : Status) (s : State) : State :=
  { emit (.done t st) s with cur := none, phase := .idle }

/-! ### Errors -/

/-- R80: the error a set of failing checks is reported as: the kind they agree on, else a free one of the two; `info` a free
one of the failing operands of that kind. -/
def reportedFailure (f : Failure) (fs : List Failure) (n : Nat) : Failure :=
  let kind : ErrKind :=
    if (f :: fs).all (·.kind == .type) then .type
    else if (f :: fs).all (·.kind == .range) then .range
    else if Config.mixedErrorIsType n then .type
    else .range
  match (f :: fs).filter (·.kind == kind) with
  | [] => f
  | a :: rest => pickFrom a rest (Config.pickOperand n)

/-- R80, R136: a validation error is delivered to its issuer in the same step, and nothing but the trace is written (and
the draw counter). -/
def raiseError (src : Source) (op : Op) (f : Failure) (fs : List Failure) (s : State) : State :=
  let e := reportedFailure f fs s.draws
  emit (.err src op e.kind e.info) { s with draws := s.draws + 1 }

/-! ### Acceptance and refusal -/

/-- R147: `REFUSE(reason)`. -/
def refuse (r : RefReason) (s : State) : State := { s with refused := some r }

/-- R147: `REFUSE` with one of the reasons `r :: rs`, the choice free where several apply. -/
def refuseWith (r : RefReason) (rs : List RefReason) (s : State) : State :=
  refuse (pickFrom r rs (Config.pickRefusal s.draws)) s

/-- R147: no agent has a step once a command was refused. -/
def unlessRefused (s : State) (k : Result) : Result :=
  match s.refused with
  | some r => .refused (.alreadyRefused r)
  | none => k

/-- R146, R147: no agent has a step once a command was refused or the exit sequence has ended. -/
def whenLive (s : State) (k : Result) : Result :=
  unlessRefused s <|
    match s.xs with
    | .done => .refused .terminated
    | .notStarted => k
    | .running => k

/-- R146: a command other than EXIT is accepted only while `xs = NONE`; afterwards it is refused with `REF_AFTER_EXIT`, whatever its
operands (R121). -/
def accept (s : State) (k : Result) : Result :=
  whenLive s <|
    match s.xs with
    | .notStarted => k
    | .running => .next (refuse .afterExit s)
    | .done => .next (refuse .afterExit s)

end Sys2Proof.Machine
end

