-- ==== Sys2Proof/Machine/Flags.lean ====
section
/-! DEFINITION. The block has no status flags (spec/10_state.md R30); here are the status predicates of R40 and R149, derived
from the state, and the error codes of spec/60_exceptions.md R132. -/

namespace Sys2Proof.Machine

/-- R40: `busy`, which is when ENC has a step (R95, R148). -/
def busy (s : State) : Bool := decide (s.phase ≠ .idle) || decide (s.queue ≠ [])

/-- R40: `acquired`. -/
def acquired (s : State) : Bool := decide (s.hsClk = .acq) && decide (s.hsDat = .acq)

/-- R40: `terminated`. -/
def terminated (s : State) : Bool := decide (s.xs = .done)

/-- R149: a final state. -/
def final (s : State) : Bool :=
  decide (s.refused = none) && (terminated s || (decide (s.port = []) && !busy s))

/-- R132: the code of a validation error. -/
def ErrKind.code : ErrKind → Nat × Nat
  | .type => (1, 0)
  | .range => (2, 0)

/-- R132: the code of a hardware I/O error, class 3 and its number. -/
def IoCause.code : IoCause → Nat × Nat
  | .writeFailed _ => (3, 1)
  | .acquireFailed _ => (3, 2)
  | .notAcquired => (3, 3)
  | .releaseFailed _ => (3, 4)

end Sys2Proof.Machine
end

