-- ==== Sys2Proof/Machine/Buffer.lean ====
section
/-! DEFINITION. The pixel buffer commands (spec/40_buffer_ops.md R80 to R94). Each validates every operand before it writes
anything (R80), is accepted whatever the encoder does (R81), and issues no GPIO action. -/

namespace Sys2Proof.Machine

/-- CLEAR, R84. -/
def execClear (src : Source) (s : State) : Result :=
  accept s <| .next (emit (.ret src .clear .unit) (clearColours s))

/-- R85: what GET_PIXEL returns of a record. -/
def pixelValue (q : Pixel) : RetVal := .pixel q.r q.g q.b (brightnessFraction q.br)

/-- GET_PIXEL, R85. -/
def execGetPixel (src : Source) (index : HostValue) (s : State) : Result :=
  accept s <|
    match chkIndex index with
    | .ok i => .next (emit (.ret src .getPixel (pixelValue s.buf[i])) s)
    | .bad f fs => .next (raiseError src .getPixel f fs s)

/-- R62, R80: the checks of three colour operands. -/
def chkColours (r g b : HostValue) : Checked (Byte × Byte × Byte) :=
  bothChecked (chkColour r) (bothChecked (chkColour g) (chkColour b))

/-- R88, R90: a record with new colours, its brightness by R82. -/
def painted (c : Byte × Byte × Byte) (v : Option Level5) (q : Pixel) : Pixel :=
  { r := c.1, g := c.2.1, b := c.2.2, br := applyBr q.br v }

/-- SET_ALL, R88. -/
def execSetAll (src : Source) (red green blue brightness : HostValue) (s : State) : Result :=
  accept s <|
    match bothChecked (chkColours red green blue) (chkBrOpt brightness) with
    | .ok (c, v) => .next (emit (.ret src .setAll .unit) { s with buf := mapPixels (painted c v) s.buf })
    | .bad f fs => .next (raiseError src .setAll f fs s)

/-- SET_PIXEL, R90. -/
def execSetPixel (src : Source) (index red green blue brightness : HostValue) (s : State) : Result :=
  accept s <|
    match bothChecked (chkIndex index) (bothChecked (chkColours red green blue) (chkBrOpt brightness)) with
    | .ok (i, c, v) => .next (emit (.ret src .setPixel .unit) (bufWrite i (painted c v s.buf[i]) s))
    | .bad f fs => .next (raiseError src .setPixel f fs s)

/-- SET_BRIGHTNESS, R92. -/
def execSetBrightness (src : Source) (brightness : HostValue) (s : State) : Result :=
  accept s <|
    match chkBrReq brightness with
    | .ok n =>
      .next (emit (.ret src .setBrightness .unit) { s with buf := mapPixels (fun q => { q with br := n }) s.buf })
    | .bad f fs => .next (raiseError src .setBrightness f fs s)

/-- PIXEL_COUNT, R94. -/
def execPixelCount (src : Source) (s : State) : Result :=
  accept s <| .next (emit (.ret src .pixelCount (.count Config.pixels)) s)

end Sys2Proof.Machine
end

