-- ==== Sys2Proof/Machine/Jobs.lean ====
section
/-! DEFINITION. The commands that give the encoder work or govern the exit sequence: SHOW (spec/41_encoder.md R96, R97),
SET_CLEAR_ON_EXIT, RELEASE and EXIT (spec/42_lifecycle.md R121, R122, R127, R128). -/

namespace Sys2Proof.Machine

/-- SET_CLEAR_ON_EXIT, R121; an operand that is no boolean is refused (R65), unless R146 refuses the command first. -/
def execSetClearOnExit (src : Source) (flag : HostValue) (s : State) : Result :=
  accept s <|
    match chkBoolOpt flag with
    | some v => .next (emit (.ret src .setClearOnExit .unit) { s with clearOnExit := v })
    | none => .next (refuse .bool s)

/-- R96, R122: a job that takes the current ticket is queued and the ticket returned at once; a full queue of capacity
`depth` holds the command (R97): nothing changes. -/
def submit (depth : Option Nat) (src : Source) (op : Op) (job : Nat → Job) (s : State) : State :=
  if queueFull depth s then s
  else emit (.ret src op (.ticket s.nextTicket)) (enqueue (job s.nextTicket) (takeTicket s))

/-- SHOW, R96. -/
def execShow (src : Source) (s : State) : Result :=
  accept s <| .next (submit Config.queueDepth src .showFrame (fun t => .flush t (originOf src)) s)

/-- RELEASE, R122. -/
def execRelease (src : Source) (s : State) : Result :=
  accept s <| .next (submit Config.queueDepth src .release (fun t => .release t (originOf src)) s)

/-- R127: the exit flush is queued, when `clearOnExit` holds, after the buffer is cleared. -/
def exitFlush (s : State) : State :=
  if s.clearOnExit then enqueue (.flush s.nextTicket .exit) (takeTicket (clearColours s)) else s

/-- R127: the exit release and the exit marker are queued. -/
def exitRelease (s : State) : State :=
  enqueue .exitMark (enqueue (.release s.nextTicket .exit) (takeTicket s))

/-- EXIT, R127; delivered again it changes nothing (R128). The rule gives one effect for every delivering agent. -/
def execExit (_src : Source) (s : State) : Result :=
  unlessRefused s <|
    match s.xs with
    | .notStarted => .next (exitRelease (exitFlush { s with xs := .running }))
    | .running => .next s
    | .done => .next s

end Sys2Proof.Machine
end

