-- ==== Sys2Proof/Machine/Gpio.lean ====
section
/-! DEFINITION. The GPIO actions as instructions (spec/60_exceptions.md R141 to R145). The encoder issues them one a step
(Machine/Wire.lean, Machine/Encoder.lean); each draws its outcome, shows it in the trace and moves the line. -/

namespace Sys2Proof.Machine

/-- GPIO_ACQ, R142 with R99 and R100: an unacquired line is acquired, an acquired one is left as it is (R99: a later flush
reuses it), a released one has no transition (R28). -/
def execGpioAcq (l : Line) (s : State) : Result :=
  whenLive s <|
    match s.hs l with
    | .unacq => .next (acquireLine l s)
    | .acq => .next s
    | .rel => .fault (.lineReleased l)

/-- GPIO_WR, R143: issued only on an acquired line. -/
def execGpioWr (l : Line) (level : Bool) (s : State) : Result :=
  whenLive s <|
    match s.hs l with
    | .acq => .next (gpioWrite l level s)
    | .unacq => .fault (.lineNotAcquired l)
    | .rel => .fault (.lineNotAcquired l)

/-- GPIO_REL, R144 with R123 and R126: an acquired line is released; otherwise no action and no state change. -/
def execGpioRel (l : Line) (s : State) : Result :=
  whenLive s <|
    match s.hs l with
    | .acq => .next (releaseLine l s)
    | .unacq => .next s
    | .rel => .next s

end Sys2Proof.Machine
end

