-- ==== Sys2Proof/Machine/Wire.lean ====
section
/-! DEFINITION. The wire frames SOF, LEDW and EOF as instructions of the encoder (spec/41_encoder.md R101 to R110). A frame
takes many encoder steps and each step issues at most one GPIO action (spec/00_scope.md R7), so executing a frame
instruction takes the one step that `phase` is at (notes/assumptions/8.md). -/

namespace Sys2Proof.Machine

/-- 41_encoder.md section 3: the phase rules apply while `cur` is a flush job; `k` is given its ticket. -/
def inFlush (s : State) (k : Nat → Result) : Result :=
  match s.cur with
  | some (.flush t _) => k t
  | some (.release _ _) => .fault .wrongJob
  | some .exitMark => .fault .wrongJob
  | none => .fault .wrongJob

/-- R101 to R110, R112: the GPIO write of a flush phase; on `ok` the encoder goes on by `next`, on `fail` the job of ticket `t`
ends with the error and nothing more is sent. -/
def writePhase (t : Nat) (l : Line) (v : Bool) (next : State → State) (s : State) : Result :=
  match s.hs l with
  | .acq =>
    .next (match gpioAnswer s with
      | .ok => next (gpioWrite l v s)
      | .fail => endJob t (.err (.writeFailed l)) (gpioWrite l v s))
  | .unacq => .fault (.lineNotAcquired l)
  | .rel => .fault (.lineNotAcquired l)

/-- R101, R108: the data line is low; the pulses begin. -/
def startPulses (first : Phase) (s : State) : State := { s with cnt := 0, phase := first }

/-- R103, R110: one more pulse has been sent; `total` of them end the run. -/
def countPulse (total : Nat) (again done : Phase) (s : State) : State :=
  { s with cnt := s.cnt + 1, phase := if s.cnt + 1 = total then done else again }

/-- SOF, R101 to R103: the data line low, then 32 clock pulses. -/
def execSof (s : State) : Result :=
  whenLive s <| inFlush s fun t =>
    match s.phase with
    | .fSofDat => writePhase t .dat false (startPulses .fSofHi) s
    | .fSofHi => writePhase t .clk true (fun s => { s with phase := .fSofLo }) s
    | .fSofLo => writePhase t .clk false (countPulse Config.sofPulses .fSofHi .fPxLoad) s
    | _ => .refused .notAtFrame

/-- R104: the word of a record is loaded, its first byte into the shift register. -/
def loadWord (q : Pixel) (s : State) : State :=
  { s with w := ledWord q, k := 0, sr := byteOf (ledWord q) 0, j := 0, phase := .fBitDat }

/-- R107: the shift, and the advance to the next bit, byte, pixel or the end frame. -/
def advanceBit (s : State) : State :=
  if s.j + 1 < 8 then { s with sr := s.sr <<< 1, j := s.j + 1, phase := .fBitDat }
  else if s.k < 3 then { s with k := s.k + 1, sr := byteOf s.w (s.k + 1), j := 0, phase := .fBitDat }
  else if s.p < Config.pixels - 1 then
    { s with sr := s.sr <<< 1, j := s.j + 1, p := s.p + 1, phase := .fPxLoad }
  else { s with sr := s.sr <<< 1, j := s.j + 1, phase := .fEofDat }

/-- LEDW, R104 to R107: the word is loaded, then each of its bits is put on the data line and clocked. In a bit phase the
instruction is the one whose word `w` holds. -/
def execLedw (br : Level5) (b g r : Byte) (s : State) : Result :=
  whenLive s <| inFlush s fun t =>
    match s.phase with
    | .fPxLoad => .next (loadWord ⟨r, g, b, br⟩ s)
    | .fBitDat =>
      if s.w = ledWord ⟨r, g, b, br⟩ then
        writePhase t .dat (s.sr.getLsbD 7) (fun s => { s with phase := .fBitHi }) s
      else .refused .otherWord
    | .fBitHi =>
      if s.w = ledWord ⟨r, g, b, br⟩ then writePhase t .clk true (fun s => { s with phase := .fBitLo }) s
      else .refused .otherWord
    | .fBitLo =>
      if s.w = ledWord ⟨r, g, b, br⟩ then writePhase t .clk false advanceBit s
      else .refused .otherWord
    | _ => .refused .notAtFrame

/-- EOF, R108 to R110: the data line low, then 36 clock pulses. -/
def execEof (s : State) : Result :=
  whenLive s <| inFlush s fun t =>
    match s.phase with
    | .fEofDat => writePhase t .dat false (startPulses .fEofHi) s
    | .fEofHi => writePhase t .clk true (fun s => { s with phase := .fEofLo }) s
    | .fEofLo => writePhase t .clk false (countPulse Config.eofPulses .fEofHi .fDone) s
    | _ => .refused .notAtFrame

end Sys2Proof.Machine
end

