-- ==== Sys2Proof/Machine/Dispatch.lean ====
section
/-! DEFINITION. exec: one arm per constructor of Instr, each one call of that instruction's meaning. -/

namespace Sys2Proof.Machine

def exec (i : Instr) (s : State) : Host.Outcome State Fault Refusal :=
  match i with
  | .clear src => Sys2Proof.Machine.execClear src s
  | .getPixel src index => Sys2Proof.Machine.execGetPixel src index s
  | .setAll src red green blue brightness => Sys2Proof.Machine.execSetAll src red green blue brightness s
  | .setPixel src index red green blue brightness => Sys2Proof.Machine.execSetPixel src index red green blue brightness s
  | .setBrightness src brightness => Sys2Proof.Machine.execSetBrightness src brightness s
  | .setClearOnExit src flag => Sys2Proof.Machine.execSetClearOnExit src flag s
  | .showFrame src => Sys2Proof.Machine.execShow src s
  | .pixelCount src => Sys2Proof.Machine.execPixelCount src s
  | .release src => Sys2Proof.Machine.execRelease src s
  | .exit src => Sys2Proof.Machine.execExit src s
  | .sof => Sys2Proof.Machine.execSof s
  | .ledw br b g r => Sys2Proof.Machine.execLedw br b g r s
  | .eof => Sys2Proof.Machine.execEof s
  | .gpioAcq line => Sys2Proof.Machine.execGpioAcq line s
  | .gpioWr line level => Sys2Proof.Machine.execGpioWr line level s
  | .gpioRel line => Sys2Proof.Machine.execGpioRel line s

end Sys2Proof.Machine
end

