-- ==== Sys2Proof/Machine/Encoder.lean ====
section
/-! DEFINITION. The encoder sequencer ENC: which frame instruction a phase is at, and the phases that are no row of the opcode
table, one definition per rule (spec/41_encoder.md R95, R98 to R100, R111; spec/42_lifecycle.md R123 to R125, R129). -/

namespace Sys2Proof.Machine

/-- R95: the phase a job starts in. -/
def firstPhase : Job → Phase
  | .flush _ _ => .fStart
  | .release _ _ => .rClk
  | .exitMark => .xDone

/-- R95: dispatch of the head of the queue. With an empty queue ENC has no step and nothing changes. -/
def encDispatch (s : State) : Result :=
  match s.queue with
  | [] => .next s
  | job :: rest => .next { s with cur := some job, queue := rest, phase := firstPhase job }

/-- R98: the buffer snapshot, taken under `AT_START`. -/
def captureFrame (fl : FrameLatch) (s : State) : State :=
  match fl with
  | .atStart => { s with latch := s.buf }
  | .perPixel => s

/-- R98: `F_START`. -/
def encStart (s : State) : Result :=
  inFlush s fun _ => .next { captureFrame Config.frameLatch s with p := 0, phase := .fAcqClk }

/-- R99, R100: what follows an acquire action of the job of ticket `t`: the next phase on `ok`, the end of the job on
`fail`. -/
def afterAcquire (t : Nat) (l : Line) (next : Phase) (o : GpioOutcome) (s : State) : State :=
  match o with
  | .ok => { s with phase := next }
  | .fail => endJob t (.err (.acquireFailed l)) s

/-- R99: `F_ACQ_CLK`. -/
def encAcqClk (s : State) : Result :=
  inFlush s fun t =>
    if s.hsClk = .rel ∨ s.hsDat = .rel then .next (endJob t (.err .notAcquired) s)
    else if s.hsClk = .unacq then
      .next (afterAcquire t .clk .fAcqDat (gpioAnswer s) (acquireLine .clk s))
    else .next { s with phase := .fAcqDat }

/-- R100: `F_ACQ_DAT`. -/
def encAcqDat (s : State) : Result :=
  inFlush s fun t =>
    if s.hsDat = .unacq then
      .next (afterAcquire t .dat .fSofDat (gpioAnswer s) (acquireLine .dat s))
    else .next { s with phase := .fSofDat }

/-- R111: `F_DONE`. -/
def encDone (s : State) : Result :=
  inFlush s fun t => .next (endJob t .ok s)

/-- The release phases apply while `cur` is a release job; `k` is given its ticket. -/
def inRelease (s : State) (k : Nat → Result) : Result :=
  match s.cur with
  | some (.release t _) => k t
  | some (.flush _ _) => .fault .wrongJob
  | some .exitMark => .fault .wrongJob
  | none => .fault .wrongJob

/-- R123, R124: `rerr` after the release action of line `l`: a failure is recorded unless one stands already. -/
def rerrAfter (l : Line) (o : GpioOutcome) (rerr : Option Line) : Option Line :=
  match o with
  | .ok => rerr
  | .fail => some (rerr.getD l)

/-- R123, R124: the release of line `l` when it is held; otherwise no action and no state change. -/
def releasePhase (l : Line) (s : State) : State :=
  match s.hs l with
  | .acq => { releaseLine l s with rerr := rerrAfter l (gpioAnswer s) s.rerr }
  | .unacq => s
  | .rel => s

/-- R123: `R_CLK`; `rerr` is reset first. -/
def encRelClk (s : State) : Result :=
  inRelease s fun _ => .next { releasePhase .clk { s with rerr := none } with phase := .rDat }

/-- R124: `R_DAT`. -/
def encRelDat (s : State) : Result :=
  inRelease s fun _ => .next { releasePhase .dat s with phase := .rDone }

/-- R125: how a release job completes. -/
def releaseStatus : Option Line → Status
  | none => .ok
  | some l => .err (.releaseFailed l)

/-- R125: `R_DONE`. -/
def encRelDone (s : State) : Result :=
  inRelease s fun t => .next (endJob t (releaseStatus s.rerr) s)

/-- R129: `X_DONE`. -/
def encExitDone (s : State) : Result :=
  match s.cur with
  | some .exitMark => .next { emit .exited s with xs := .done, cur := none, phase := .idle }
  | some (.flush _ _) => .fault .wrongJob
  | some (.release _ _) => .fault .wrongJob
  | none => .fault .wrongJob

/-- R104, R52: the record pixel `p` is sent from: the snapshot under `AT_START`, the buffer itself under `PER_PIXEL`. -/
def frameRecord (fl : FrameLatch) (s : State) : Option Pixel :=
  match fl with
  | .atStart => s.latch[s.p]?
  | .perPixel => s.buf[s.p]?

/-- The LEDW instruction of a record. -/
def ledwOf (q : Pixel) : Instr := .ledw q.br q.b q.g q.r

/-- The LEDW instruction whose word is in `w`; none for a word without its header (R75). -/
def ledwInFlight (s : State) : Option Instr :=
  if s.w.extractLsb' 29 3 = 0b111 then (decodeWire32 s.w).toOption else none

/-- The frame instruction the encoder executes in its phase, where it is at one: SOF and EOF in their phases, and LEDW, fetched
from pixel `p`'s record in `F_PX_LOAD` and from `w` while its bits are sent. -/
def encFetch (s : State) : Option Instr :=
  match s.phase with
  | .fSofDat => some .sof
  | .fSofHi => some .sof
  | .fSofLo => some .sof
  | .fPxLoad => (frameRecord Config.frameLatch s).map ledwOf
  | .fBitDat => ledwInFlight s
  | .fBitHi => ledwInFlight s
  | .fBitLo => ledwInFlight s
  | .fEofDat => some .eof
  | .fEofHi => some .eof
  | .fEofLo => some .eof
  | .idle => none
  | .fStart => none
  | .fAcqClk => none
  | .fAcqDat => none
  | .fDone => none
  | .rClk => none
  | .rDat => none
  | .rDone => none
  | .xDone => none

/-- ENC's step in a phase that is at no frame instruction. -/
def encInternal (s : State) : Result :=
  match s.phase with
  | .idle => encDispatch s
  | .fStart => encStart s
  | .fAcqClk => encAcqClk s
  | .fAcqDat => encAcqDat s
  | .fDone => encDone s
  | .rClk => encRelClk s
  | .rDat => encRelDat s
  | .rDone => encRelDone s
  | .xDone => encExitDone s
  | .fPxLoad => .fault .pixelOutOfRange
  | .fBitDat => .refused .malformedWord
  | .fBitHi => .refused .malformedWord
  | .fBitLo => .refused .malformedWord
  | .fSofDat => .refused .notAtFrame
  | .fSofHi => .refused .notAtFrame
  | .fSofLo => .refused .notAtFrame
  | .fEofDat => .refused .notAtFrame
  | .fEofHi => .refused .notAtFrame
  | .fEofLo => .refused .notAtFrame

end Sys2Proof.Machine
end

