-- ==== Sys2Proof/Machine/Schedule.lean ====
section
/-! DEFINITION. Which agent steps (spec/20_memory.md R50), how a command is taken from the port and refused when it does not
decode (spec/30_encoding.md R59, R73), and how an instruction is put where the next step runs it. -/

namespace Sys2Proof.Machine

/-- R8: an agent with a step, and what it does: a host or EXITSRC issues the command `c`, or ENC takes an encoder step. -/
inductive Agent where
  | issuer (c : RawCommand)
  | enc
  deriving DecidableEq, Repr

/-- R50: the next command of every issuing agent, in its program order; `seen` are the agents already met. -/
def nextCommands (seen : List Source) : List RawCommand → List RawCommand
  | [] => []
  | c :: cs => if c.src ∈ seen then nextCommands seen cs else c :: nextCommands (c.src :: seen) cs

/-- R97: SHOW and RELEASE are held while the queue is full. -/
def held (depth : Option Nat) (s : State) (c : RawCommand) : Bool :=
  (c.op == 0x07 || c.op == 0x09) && queueFull depth s

/-- The agents that have a step, in a state that is neither refused nor terminated.
DESIGN CHOICE: R152 names no host from HOSTS on, and no rule says what a command on the port from one does; it is given a step and
handled like any host's, since well-formedness is not consulted here (notes/assumptions/24.md). -/
def readyAgents (s : State) : List Agent :=
  ((nextCommands [] s.port).filter fun c => !held Config.queueDepth s c).map .issuer ++
    if busy s then [.enc] else []

/-- R50: the agent that steps next: the only one that can, or a free one of those that can. -/
def chooseAgent (s : State) : Option Agent :=
  match readyAgents s with
  | [] => none
  | a :: rest => some (pickFrom a rest (Config.pickAgent s.turn))

/-- One more agent step. -/
def advanceTurn (s : State) : State := { s with turn := s.turn + 1 }

/-- The command `c` taken from the port. -/
def takeCommand (c : RawCommand) (s : State) : State := { advanceTurn s with port := s.port.erase c }

/-- R59, R73: the refusal a decoding error is; only the first two errors are of the command port. -/
def decodeReason : DecodeError → RefReason
  | .reservedOpcode => .opcode
  | .beyondArity => .arity
  | .reservedWireWord => .opcode
  | .notEndFrame => .opcode
  | .malformedGpioEvent => .opcode

/-- R65, R146: the other reasons that refuse a command which does not decode: once EXIT has been accepted R146's, before it R65's. -/
def furtherReasons (c : RawCommand) (s : State) : List RefReason :=
  if s.xs = .notStarted then if c.op = 0x06 ∧ chkBoolOpt c.a0 = none then [.bool] else []
  else if c.op ≠ 0x0A then [.afterExit] else []

/-- R59, R73, R147: a command that does not decode is refused. -/
def refuseCommand (c : RawCommand) (e : DecodeError) (s : State) : State :=
  refuseWith (decodeReason e) (furtherReasons c s) s

/-- A state with nothing refused, no exit begun, and nothing for any agent to do. -/
def quieted (s : State) : State :=
  { s with refused := none, xs := .notStarted, port := [], queue := [], cur := none, phase := .idle }

/-- A quiet state with a flush job of its own ticket in progress at phase `ph`, both lines held. -/
def flushing (ph : Phase) (s : State) : State :=
  { quieted s with
    cur := some (.flush s.nextTicket (.host 0)), nextTicket := s.nextTicket + 1, phase := ph,
    hsClk := .acq, hsDat := .acq, lvlClk := .low, lvlDat := .low }

/-- A quiet state with a release job of its own ticket in progress at phase `ph`. -/
def releasing (ph : Phase) (s : State) : State :=
  { quieted s with
    cur := some (.release s.nextTicket (.host 0)), nextTicket := s.nextTicket + 1, phase := ph }

/-- The state in which ENC's next step issues the GPIO action or begins the frame that `e` encodes; a command goes to the
port, and a wire word that is no frame to `w`. -/
def placed (e : Encoded) (s : State) : State :=
  match e with
  | .command c => { quieted s with port := [c] }
  | .wire32 w =>
    match decodeWire32 w with
    | .ok .sof => flushing .fSofDat s
    | .ok (.ledw br b g r) => { flushing .fPxLoad s with p := 0, latch := s.latch.set 0 ⟨r, g, b, br⟩ }
    | .ok _ => s
    | .error _ => { flushing .fBitDat s with w := w }
  | .wire36 w => if w = 0 then flushing .fEofDat s else s
  | .gpioEvent ev =>
    match decodeGpioEvent ev with
    | .ok (.gpioAcq .clk) => { flushing .fAcqClk s with hsClk := .unacq, hsDat := .unacq, lvlClk := .z, lvlDat := .z }
    | .ok (.gpioAcq .dat) => { flushing .fAcqDat s with hsDat := .unacq, lvlDat := .z }
    | .ok (.gpioWr .clk true) => { flushing .fSofHi s with cnt := 0 }
    | .ok (.gpioWr .clk false) => { flushing .fSofLo s with cnt := 0 }
    | .ok (.gpioWr .dat false) => flushing .fSofDat s
    | .ok (.gpioWr .dat true) => { loadWord ⟨0, 0, 0, 31⟩ (flushing .fBitDat s) with p := 0 }
    | .ok (.gpioRel .clk) => { releasing .rClk s with hsClk := .acq, lvlClk := .low }
    | .ok (.gpioRel .dat) => { releasing .rDat s with hsDat := .acq, lvlDat := .low, rerr := none }
    | .ok _ => s
    | .error _ => s

end Sys2Proof.Machine
end

