-- ==== Sys2Proof/Machine/Step.lean ====
section
/-! DEFINITION. step: one atomic step of the one agent that moves (spec/00_scope.md R7, R8; spec/20_memory.md R50), and the placing
of an opcode-table word where the next step runs it. -/

namespace Sys2Proof.Machine

/-- ENC's step: the frame instruction its phase is at, executed, or the phase's own rule. -/
def encStep (s : State) : Result :=
  match encFetch s with
  | some i => exec i s
  | none => encInternal s

/-- The step of a host or of EXITSRC: its command is taken, decoded and executed, or refused (R59, R73). -/
def issueStep (c : RawCommand) (s : State) : Result :=
  match decodeCommand c with
  | .ok i => exec i (takeCommand c s)
  | .error e => .next (refuseCommand c e (takeCommand c s))

/-- One step of the machine. After a refusal there is none (R147); after the exit sequence (R146), and while no agent has a step
(R95), nothing changes (notes/assumptions/6.md). -/
def step (s : State) : Host.Outcome State Fault Refusal :=
  match s.refused with
  | some r => .refused (.alreadyRefused r)
  | none =>
    if terminated s then .next s
    else
      match chooseAgent s with
      | none => .next s
      | some (.issuer c) => issueStep c s
      | some .enc => encStep (advanceTurn s)

/-- `s` with the instruction of an opcode-table word where the next step runs it: a command is the one command on the port, a frame
or a GPIO action stands at the encoder's next step (notes/assumptions/1.md, 10.md). -/
def State.withFetchWord (s : State) (nbits w : Nat) : State :=
  match encodedOfTableWord nbits w with
  | some e => placed e s
  | none => s

end Sys2Proof.Machine
end

