-- ==== Sys2Proof/Machine/Assembler.lean ====
section
/-! DEFINITION. The assembler of spec/30_encoding.md R78: the command record a line of text stands for. A line is a list of
characters. -/

namespace Sys2Proof.Machine

/-- R78: one operand as written. -/
inductive AsmOperand where
  /-- A decimal literal, minus `m * 10^-d` when `neg`, else plus. -/
  | decimal (neg : Bool) (m d : Nat)
  /-- `NaN`. -/
  | nan
  /-- `Inf`, or `-Inf` when `neg`. -/
  | inf (neg : Bool)
  /-- `true` or `false`. -/
  | bool (b : Bool)
  /-- `null`. -/
  | null
  /-- A quoted string. -/
  | string
  deriving DecidableEq, Repr

/-- R78: the mnemonic as written. -/
def Op.asmName : Op → List Char
  | .clear => ['c', 'l', 'e', 'a', 'r']
  | .getPixel => ['g', 'e', 't', 'P', 'i', 'x', 'e', 'l']
  | .setAll => ['s', 'e', 't', 'A', 'l', 'l']
  | .setPixel => ['s', 'e', 't', 'P', 'i', 'x', 'e', 'l']
  | .setBrightness => ['s', 'e', 't', 'B', 'r', 'i', 'g', 'h', 't', 'n', 'e', 's', 's']
  | .setClearOnExit => ['s', 'e', 't', 'C', 'l', 'e', 'a', 'r', 'O', 'n', 'E', 'x', 'i', 't']
  | .showFrame => ['s', 'h', 'o', 'w']
  | .pixelCount => ['p', 'i', 'x', 'e', 'l', 'C', 'o', 'u', 'n', 't']
  | .release => ['r', 'e', 'l', 'e', 'a', 's', 'e']
  | .exit => ['e', 'x', 'i', 't']

/-- R78: the mnemonics, in the order of their opcodes. -/
def allOps : List Op :=
  [.clear, .getPixel, .setAll, .setPixel, .setBrightness, .setClearOnExit, .showFrame, .pixelCount, .release, .exit]

/-- R60, R78: the opcode of a mnemonic. -/
def Op.opcode : Op → Byte
  | .clear => 0x01
  | .getPixel => 0x02
  | .setAll => 0x03
  | .setPixel => 0x04
  | .setBrightness => 0x05
  | .setClearOnExit => 0x06
  | .showFrame => 0x07
  | .pixelCount => 0x08
  | .release => 0x09
  | .exit => 0x0A

/-- The sign bit set when `neg`. -/
def signed (neg : Bool) (x : Binary64) : Binary64 := if neg then x ||| 0x8000000000000000 else x

/-- The bits of plus infinity. -/
def plusInf : Binary64 := 0x7FF0000000000000

/-- R78: the binary64 value nearest to plus or minus `m * 10^-d`, an infinity past the largest finite number. -/
def nearestBinary64 (neg : Bool) (m d : Nat) : Binary64 :=
  let u := roundUnits (m * oneUnits) (10 ^ d)
  signed neg (if 2 ^ 2098 ≤ u then plusInf else packUnits u)

/-- R78: the operand slot of an operand as written. -/
def AsmOperand.value : AsmOperand → HostValue
  | .decimal neg m d => .num (nearestBinary64 neg m d)
  | .nan => .num 0x7FF8000000000000
  | .inf neg => .num (signed neg plusInf)
  | .bool b => .bool b
  | .null => .absent
  | .string => .other

/-- R78: the command record of a line; omitted trailing operands are `ABSENT`, and more than five do not fit. -/
def assemble (src : Source) (op : Op) (operands : List AsmOperand) : Option RawCommand :=
  let at' (n : Nat) : HostValue := ((operands[n]?).map AsmOperand.value).getD .absent
  if operands.length ≤ 5 then
    some { src, op := op.opcode, a0 := at' 0, a1 := at' 1, a2 := at' 2, a3 := at' 3, a4 := at' 4 }
  else none

/-! ### A line of text -/

/-- A blank or a tab. -/
def isBlank (c : Char) : Bool := c == ' ' || c == '\t'

/-- The double quote, the one quote mark read (notes/assumptions/22.md). -/
def quoteChar : Char := Char.ofNat 34

/-- A text without the blanks at its ends. -/
def trimBlanks (cs : List Char) : List Char := ((cs.dropWhile isBlank).reverse.dropWhile isBlank).reverse

/-- R78: the operands of a line, cut at its commas, those inside a quoted string excepted; `cur` is what the current operand has so
far, last character first. -/
def splitCommas (quoted : Bool) (cur : List Char) : List Char → List (List Char)
  | [] => [cur.reverse]
  | c :: cs =>
    if c = quoteChar then splitCommas (!quoted) (c :: cur) cs
    else if c = ',' ∧ quoted = false then cur.reverse :: splitCommas false [] cs
    else splitCommas quoted (c :: cur) cs

/-- The number a run of decimal digits stands for. -/
def digitsValue (cs : List Char) : Option Nat :=
  if cs ≠ [] ∧ cs.all Char.isDigit then some (cs.foldl (fun n c => 10 * n + (c.toNat - 48)) 0) else none

/-- R78: a decimal literal without its sign: digits, or digits, a point and digits, as digits and their decimal places. -/
def decimalValue (cs : List Char) : Option (Nat × Nat) :=
  let whole := cs.takeWhile Char.isDigit
  match cs.dropWhile Char.isDigit with
  | [] => (digitsValue whole).map fun m => (m, 0)
  | '.' :: places =>
    if whole = [] ∨ places = [] then none else (digitsValue (whole ++ places)).map fun m => (m, places.length)
  | _ => none

/-- R78: an operand other than a quoted string, its sign in `neg`. -/
def numberOf (neg : Bool) (cs : List Char) : Option AsmOperand :=
  if cs = ['I', 'n', 'f'] then some (.inf neg)
  else (decimalValue cs).map fun q => .decimal neg q.1 q.2

/-- R78: the operand a piece of text stands for.
DESIGN CHOICE: R78 says "a quoted string" only; here it is text between two double quotes with no double quote inside it, so there is
no escape and no other quote mark (notes/assumptions/22.md). -/
def operandOf (cs : List Char) : Option AsmOperand :=
  if cs = ['t', 'r', 'u', 'e'] then some (.bool true)
  else if cs = ['f', 'a', 'l', 's', 'e'] then some (.bool false)
  else if cs = ['n', 'u', 'l', 'l'] then some .null
  else if cs = ['N', 'a', 'N'] then some .nan
  else
    match cs with
    | [] => none
    | c :: rest =>
      if c = quoteChar then
        if rest ≠ [] ∧ rest.getLast? = some quoteChar ∧ quoteChar ∉ rest.dropLast then some .string else none
      else if c = '-' then numberOf true rest
      else numberOf false cs

/-- R78: the issuing agent a line names, and the rest of the line: `h<n>:` is that host, none is host 0. -/
def hostOf (cs : List Char) : Source × List Char :=
  match cs with
  | 'h' :: rest =>
    match digitsValue (rest.takeWhile Char.isDigit), rest.dropWhile Char.isDigit with
    | some n, ':' :: more => (.host n, trimBlanks more)
    | _, _ => (.host 0, cs)
  | _ => (.host 0, cs)

/-- R78: a mnemonic and its operands. -/
def assembleCommand (src : Source) (cs : List Char) : Option RawCommand :=
  let name := cs.takeWhile Char.isAlpha
  let rest := cs.dropWhile Char.isAlpha
  let body := trimBlanks rest
  match allOps.find? (fun op => op.asmName == name) with
  | none => none
  | some op =>
    if body = [] then assemble src op []
    else if body = rest then none
    else ((splitCommas false [] body).mapM fun piece => operandOf (trimBlanks piece)).bind (assemble src op)

/-- R78: the command record of a line; `!exit` is EXIT delivered by EXITSRC. None for a text that is no line of the syntax.
DESIGN CHOICE: blanks may stand around every part, and a literal has no exponent (notes/assumptions/22.md). -/
def assembleLine (line : List Char) : Option RawCommand :=
  match trimBlanks line with
  | '!' :: rest => if rest = Op.exit.asmName then some { src := .exitSrc, op := Op.exit.opcode } else none
  | cs => assembleCommand (hostOf cs).1 (hostOf cs).2

end Sys2Proof.Machine
end

