-- ==== Sys2Proof/Machine/Observe.lean ====
section
/-! DEFINITION. How the trace is read: the 4-bit form of a GPIO event (spec/30_encoding.md R77), the bits the clock pulses carry
(R76), a frame as bits and as line writes (R69 to R72, spec/41_encoder.md R116), and what the trace says of a line
(spec/10_state.md R28, R29). -/

namespace Sys2Proof.Machine

/-- R77: the 4-bit form of a GPIO event; none for the other events. -/
def Event.gpioForm : Event → Option (BitVec 4)
  | .acq l _ => some (gpioEventBits 0b00 l false)
  | .wr l v _ => some (gpioEventBits 0b01 l v)
  | .rel l _ => some (gpioEventBits 0b10 l false)
  | .done _ _ => none
  | .ret _ _ _ => none
  | .err _ _ _ _ => none
  | .exited => none

/-- R38: the GPIO actions of a trace. -/
def gpioEvents (es : List Event) : List Event := es.filter fun e => e.gpioForm.isSome

/-- R76: the bits the successful rising clock writes of `es` carry, the data line being at `level` before. -/
def clockedBits (level : Bool) : List Event → List Bool
  | [] => []
  | .wr .dat v .ok :: es => clockedBits v es
  | .wr .clk true .ok :: es => level :: clockedBits level es
  | _ :: es => clockedBits level es

/-- R71: `bits(w)`, bit 31 first. -/
def wordBits (w : Word) : List Bool := (List.range 32).map fun i => w.getLsbD (31 - i)

/-- R71: the data-line values of a complete frame at its clock pulses. -/
def frameBits (q : Pixels) : List Bool :=
  List.replicate Config.sofPulses false ++ (q.toList.map ledWord).flatMap wordBits ++
    List.replicate Config.eofPulses false

/-- R72: a clock pulse. -/
def pulse : List Event := [.wr .clk true .ok, .wr .clk false .ok]

/-- R72: a framing run of `n` pulses. -/
def framingRun (n : Nat) : List Event := .wr .dat false .ok :: (List.replicate n pulse).flatten

/-- R72: the writes of one bit of a command word. -/
def bitWrites (b : Bool) : List Event := .wr .dat b .ok :: pulse

/-- R72: the writes of a command word. -/
def wordWrites (w : Word) : List Event := (wordBits w).flatMap bitWrites

/-- R116: the writes of a successful flush that sends the records `q`. -/
def frameWrites (q : Pixels) : List Event :=
  framingRun Config.sofPulses ++ (q.toList.map ledWord).flatMap wordWrites ++ framingRun Config.eofPulses

/-- R29: the level of line `l` after one more event. -/
def levelAfter (l : Line) (v : Level) : Event → Level
  | .acq m o => if m = l ∧ o = .ok then .low else v
  | .wr m b o => if m = l then (match o with | .ok => levelOf b | .fail => .x) else v
  | .rel m o => if m = l then (match o with | .ok => .z | .fail => .x) else v
  | .done _ _ => v
  | .ret _ _ _ => v
  | .err _ _ _ _ => v
  | .exited => v

/-- R29: the level a trace leaves line `l` at. -/
def levelShown (l : Line) (es : List Event) : Level := es.foldl (levelAfter l) .z

/-- R28: the handle state of line `l` after one more event. -/
def handleAfter (l : Line) (h : HandleState) : Event → HandleState
  | .acq m o => if m = l ∧ o = .ok then .acq else h
  | .rel m _ => if m = l then .rel else h
  | .wr _ _ _ => h
  | .done _ _ => h
  | .ret _ _ _ => h
  | .err _ _ _ _ => h
  | .exited => h

/-- R28: the handle state a trace leaves line `l` in. -/
def handleShown (l : Line) (es : List Event) : HandleState := es.foldl (handleAfter l) .unacq

/-- R38: the tickets a trace reports complete, in order. -/
def doneTickets (es : List Event) : List Nat :=
  es.filterMap fun e => match e with | .done t _ => some t | _ => none

/-- R35: the ticket of a job. -/
def Job.ticket? : Job → Option Nat
  | .flush t _ => some t
  | .release t _ => some t
  | .exitMark => none

/-- R34: the job being executed, then the queued ones. -/
def jobsPending (s : State) : List Job := s.cur.toList ++ s.queue

/-- R53: the tickets still to complete, in order. -/
def pendingTickets (s : State) : List Nat := (jobsPending s).filterMap Job.ticket?

end Sys2Proof.Machine
end

