-- ==== Sys2Proof/Safety.lean ====
section
/-! DEFINITION. What holds of every state a run reaches: the invariant of the sequencer, the ticket ledger, and the agreement of
the trace with the lines. -/

namespace Sys2Proof.Safety

open Sys2Proof.Machine

/-- R147: no command was refused and the exit sequence has not ended, so agents may step. -/
def Live (s : State) : Prop := s.refused = none ∧ s.xs ≠ .done

/-- R146: commands are accepted. -/
def Accepting (s : State) : Prop := s.refused = none ∧ s.xs = .notStarted

/-- No command waits on the port, so that only ENC can step. -/
def OnlyEncoder (s : State) : Prop := Live s ∧ s.port = []

/-- R17: the number a finite binary64 value stands for, by IEEE-754's formula (PRESUMED, notes/assumptions/15.md); none for NaN
and the infinities. -/
def binary64Real (x : Binary64) : Option ℚ :=
  let e := (x.extractLsb' 52 11).toNat
  let m := (x.extractLsb' 0 52).toNat
  let mag : ℚ :=
    if e = 0 then (m : ℚ) * (2 : ℚ) ^ (-1074 : ℤ) else (1 + (m : ℚ) / 2 ^ 52) * (2 : ℚ) ^ ((e : ℤ) - 1023)
  if e = 2047 then none else some (if x.msb then -mag else mag)

/-- R17: `x` is the binary64 number nearest to `q`, the even one of two equally near. -/
def IsNearest (x : Binary64) (q : ℚ) : Prop :=
  ∃ v, binary64Real x = some v ∧
    ∀ z u, binary64Real z = some u → |v - q| ≤ |u - q| ∧ (|v - q| = |u - q| → u ≠ v → x.getLsbD 0 = false)

/-- R29, R39, R142 to R144: the level that goes with a handle state. -/
def lineFits (h : HandleState) (v : Level) : Prop :=
  match h with
  | .unacq => v = .z
  | .acq => v ≠ .z
  | .rel => v = .z ∨ v = .x

/-- R31, R34: the job each phase belongs to. -/
def jobFits (ph : Phase) (cur : Option Job) : Prop :=
  match ph with
  | .idle => cur = none
  | .rClk => ∃ t o, cur = some (.release t o)
  | .rDat => ∃ t o, cur = some (.release t o)
  | .rDone => ∃ t o, cur = some (.release t o)
  | .xDone => cur = some .exitMark
  | _ => ∃ t o, cur = some (.flush t o)

/-- R104 to R107: while pixel `p`'s word is sent, `w` is its word and `sr` what is left of byte `k`. -/
def wordFits (s : State) : Prop :=
  ∃ h : s.p < Config.pixels, s.w = ledWord s.latch[s.p] ∧ s.k ≤ 3 ∧ s.j < 8 ∧ s.sr = byteOf s.w s.k <<< s.j

/-- R143: both lines are acquired. -/
def bothHeld (s : State) : Prop := s.hsClk = .acq ∧ s.hsDat = .acq

/-- R98 to R111, R123 to R125: what each phase knows of the handles, levels and registers. -/
def phaseFits (s : State) : Prop :=
  match s.phase with
  | .fAcqClk => s.p = 0
  | .fAcqDat => s.hsClk = .acq ∧ s.hsDat ≠ .rel ∧ s.p = 0
  | .fSofDat => bothHeld s ∧ s.p = 0
  | .fSofHi => bothHeld s ∧ s.cnt < Config.sofPulses ∧ s.lvlDat = .low ∧ s.p = 0
  | .fSofLo => bothHeld s ∧ s.cnt < Config.sofPulses ∧ s.lvlDat = .low ∧ s.lvlClk = .high ∧ s.p = 0
  | .fPxLoad => bothHeld s ∧ s.p < Config.pixels
  | .fBitDat => bothHeld s ∧ wordFits s
  | .fBitHi => bothHeld s ∧ wordFits s ∧ s.lvlDat = levelOf (s.sr.getLsbD 7)
  | .fBitLo => bothHeld s ∧ wordFits s ∧ s.lvlDat = levelOf (s.sr.getLsbD 7) ∧ s.lvlClk = .high
  | .fEofDat => bothHeld s
  | .fEofHi => bothHeld s ∧ s.cnt < Config.eofPulses ∧ s.lvlDat = .low
  | .fEofLo => bothHeld s ∧ s.cnt < Config.eofPulses ∧ s.lvlDat = .low ∧ s.lvlClk = .high
  | .fDone => bothHeld s ∧ s.lvlDat = .low ∧ s.lvlClk = .low
  | .rDat => s.hsClk ≠ .acq ∧ (s.rerr = none ∨ s.rerr = some .clk)
  | .rDone => s.hsClk ≠ .acq ∧ s.hsDat ≠ .acq
  | _ => True

/-- R36, R127, R129: the exit marker is pending exactly while the exit sequence runs, behind every other job, and no job is
left once it has ended. -/
def exitFits (s : State) : Prop :=
  match s.xs with
  | .notStarted => .exitMark ∉ jobsPending s
  | .running => ∃ jobs, jobsPending s = jobs ++ [.exitMark] ∧ .exitMark ∉ jobs
  | .done => jobsPending s = []

/-- The invariant of the sequencer: the ranges of R32, and the parts above. -/
structure Inv (s : State) : Prop where
  cnt_le : s.cnt ≤ 36
  p_le : s.p ≤ Config.pixels
  k_le : s.k ≤ 3
  j_le : s.j ≤ 8
  clk_fits : lineFits s.hsClk s.lvlClk
  dat_fits : lineFits s.hsDat s.lvlDat
  job_fits : jobFits s.phase s.cur
  phase_fits : phaseFits s
  exit_fits : exitFits s

/-- R35, R53, R120: the tickets reported complete, then those pending, are all the tickets given out, each once and in
order. -/
def TicketLedger (s : State) : Prop := doneTickets s.trace ++ pendingTickets s = List.range s.nextTicket

/-- R28, R29: each line's handle state and level are what the trace of actions on it says. -/
def TraceShowsLines (s : State) : Prop :=
  ∀ l : Line, s.hs l = handleShown l s.trace ∧ s.lvl l = levelShown l s.trace

/-- The frame instruction a state is at, and the line and value its step writes (R101 to R110); in a bit phase `q` is a record whose
word is in `w`. -/
def phaseWrite (s : State) (q : Pixel) : Option (Instr × Line × Bool) :=
  match s.phase with
  | .fSofDat => some (.sof, .dat, false)
  | .fSofHi => some (.sof, .clk, true)
  | .fSofLo => some (.sof, .clk, false)
  | .fBitDat => if s.w = ledWord q then some (.ledw q.br q.b q.g q.r, .dat, s.sr.getLsbD 7) else none
  | .fBitHi => if s.w = ledWord q then some (.ledw q.br q.b q.g q.r, .clk, true) else none
  | .fBitLo => if s.w = ledWord q then some (.ledw q.br q.b q.g q.r, .clk, false) else none
  | .fEofDat => some (.eof, .dat, false)
  | .fEofHi => some (.eof, .clk, true)
  | .fEofLo => some (.eof, .clk, false)
  | _ => none

/-- R80: what a command does whose failing checks are `fails`: one of them is reported, of the kind they agree on if they do, and nothing
is written but the trace (and the model's draw counter). -/
def rejects (src : Source) (op : Op) (fails : List Failure) (s : State) (out : Result) : Prop :=
  ∃ k info, out = .next { s with trace := s.trace ++ [.err src op k info], draws := s.draws + 1 } ∧
    ⟨k, info⟩ ∈ fails ∧ ((∀ f ∈ fails, f.kind = .type) → k = .type) ∧ ((∀ f ∈ fails, f.kind = .range) → k = .range)

/-- The SET_PIXEL commands of R89 one after the other, from index list `is`. -/
def setEach (src : Source) (idx : Fin Config.pixels → HostValue) (r g b br : HostValue) :
    List (Fin Config.pixels) → State → Option State
  | [], s => some s
  | i :: is, s =>
    match exec (.setPixel src (idx i) r g b br) s with
    | .next t => setEach src idx r g b br is t
    | _ => none

/-- R118, R95, R123 to R125, R129: the phase a step of ENC may lead to while it is busy. -/
def phaseSuccessors : Phase → List Phase
  | .idle => [.fStart, .rClk, .xDone]
  | .fStart => [.fAcqClk]
  | .fAcqClk => [.fAcqDat, .idle]
  | .fAcqDat => [.fSofDat, .idle]
  | .fSofDat => [.fSofHi, .idle]
  | .fSofHi => [.fSofLo, .idle]
  | .fSofLo => [.fSofHi, .fPxLoad, .idle]
  | .fPxLoad => [.fBitDat]
  | .fBitDat => [.fBitHi, .idle]
  | .fBitHi => [.fBitLo, .idle]
  | .fBitLo => [.fBitDat, .fPxLoad, .fEofDat, .idle]
  | .fEofDat => [.fEofHi, .idle]
  | .fEofHi => [.fEofLo, .idle]
  | .fEofLo => [.fEofHi, .fDone, .idle]
  | .fDone => [.idle]
  | .rClk => [.rDat]
  | .rDat => [.rDone]
  | .rDone => [.idle]
  | .xDone => [.idle]

end Sys2Proof.Safety
end

