-- ==== Sys2Proof/Certificates/Slice0/Obligations.lean ====
section
/-! DEFINITION. The statements for the provers, each a rule of spec/ or an invariant of the model. -/

open Sys2Proof Sys2Proof.Machine Sys2Proof.Safety

/-! ### Reset and the invariants -/

/-- R39: the state after reset, every element of the table; the rows the table marks "spec's choice" are the spec's own choices. -/
def Obligations.ResetMatchesTable : Prop :=
  (∀ i : Fin Config.pixels, State.reset.buf[i] = ⟨0, 0, 0, 7⟩) ∧
  State.reset.clearOnExit = true ∧
  (∀ l : Line, State.reset.hs l = .unacq ∧ State.reset.lvl l = .z) ∧
  State.reset.phase = .idle ∧
  State.reset.cnt = 0 ∧ State.reset.p = 0 ∧ State.reset.k = 0 ∧ State.reset.j = 0 ∧
  State.reset.sr = 0 ∧ State.reset.w = 0 ∧ State.reset.rerr = none ∧
  (∀ i : Fin Config.pixels, State.reset.latch[i] = ⟨0, 0, 0, 0⟩) ∧
  State.reset.queue = [] ∧ State.reset.cur = none ∧ State.reset.nextTicket = 0 ∧
  State.reset.xs = .notStarted ∧ State.reset.refused = none ∧ State.reset.trace = []

/-- The three invariants hold at reset (R39). -/
def Obligations.ResetMeetsInvariants : Prop :=
  Inv State.reset ∧ TicketLedger State.reset ∧ TraceShowsLines State.reset

/-- R28, R31, R32, R34, R36: every step of every agent keeps the invariant of the sequencer. -/
def Obligations.StepKeepsInvariant : Prop :=
  ∀ s t : State, Inv s → step s = .next t → Inv t

/-- R35, R53, R120: every step keeps the ticket ledger: tickets complete in the order they were given out, each once. -/
def Obligations.StepKeepsTicketLedger : Prop :=
  ∀ s t : State, Inv s → TicketLedger s → step s = .next t → TicketLedger t

/-- R28, R29: every step keeps the handles and levels equal to what the trace of line actions says. -/
def Obligations.StepKeepsTraceShowsLines : Prop :=
  ∀ s t : State, TraceShowsLines s → step s = .next t → TraceShowsLines t

/-- R148: in a state that meets the invariant and has no refusal the machine never stops: no fault, no refusal, no phase without
a step. -/
def Obligations.StepNeverStopsInInvariantStates : Prop :=
  ∀ s : State, Inv s → s.refused = none → ∃ t, step s = .next t

/-! ### Encodings -/

/-- R60, R67, R69, R70, R77: every instruction, with every operand, decodes back from its encoding. -/
def Obligations.DecodeEncodeAgree : Prop :=
  ∀ i : Instr, decode (encode i) = .ok i

/-- R74: every word that decodes has one meaning: it is the encoding of what it decodes to. -/
def Obligations.EncodeDecodeAgree : Prop :=
  ∀ (e : Encoded) (i : Instr), decode e = .ok i → encode i = e

/-- Words written out from R60, R67 to R70, R77 and the examples of 95_test_vectors.md decode to what they stand for. -/
def Obligations.SpecWordsDecode : Prop :=
  decode (.command ⟨.host 0, 0x04, .num 0x4008000000000000, .num 0x406FE00000000000, .num 0, .num 0,
      .num 0x3FF0000000000000⟩) =
    .ok (.setPixel (.host 0) (.num 0x4008000000000000) (.num 0x406FE00000000000) (.num 0) (.num 0)
      (.num 0x3FF0000000000000)) ∧
  decode (.command ⟨.exitSrc, 0x0A, .absent, .absent, .absent, .absent, .absent⟩) = .ok (.exit .exitSrc) ∧
  decode (.wire32 0xFF0000FF) = .ok (.ledw 31 0 0 255) ∧
  decode (.wire32 0xE4030201) = .ok (.ledw 4 3 2 1) ∧
  decode (.wire32 0) = .ok .sof ∧
  decode (.wire36 0) = .ok .eof ∧
  decode (.gpioEvent 0b0010) = .ok (.gpioAcq .dat) ∧
  decode (.gpioEvent 0b0101) = .ok (.gpioWr .clk true) ∧
  decode (.gpioEvent 0b1000) = .ok (.gpioRel .clk) ∧
  decode (.gpioEvent 0b1100) = .error .malformedGpioEvent

/-- R73, R147: a command with a reserved opcode does not decode, and the step that takes it writes `refused` and nothing else (the
model's port and turn apart). While the exit sequence runs R146 refuses it too, and which of the two reasons is recorded is the
model's choice (notes/assumptions/5.md). -/
def Obligations.ReservedOpcodeRefused : Prop :=
  ∀ (c : RawCommand) (s : State), (c.op = 0x00 ∨ 0x0B ≤ c.op) → Live s → chooseAgent s = some (.issuer c) →
    decode (.command c) = .error .reservedOpcode ∧
    ∃ r, step s = .next { s with refused := some r, port := s.port.erase c, turn := s.turn + 1 } ∧
      (r = .opcode ∨ (r = .afterExit ∧ s.xs = .running))

/-- R59, R147: a command with an operand beyond its arity is refused; where, before EXIT, its first operand is also one that R65 refuses,
or the exit sequence runs and R146 refuses it, the reason is one of those that apply (the model's choice, notes/assumptions/5.md). -/
def Obligations.OperandBeyondArityRefused : Prop :=
  ∀ (c : RawCommand) (n : Nat) (s : State), arity c.op = some n → c.absentFrom n = false → Live s →
    chooseAgent s = some (.issuer c) →
    decode (.command c) = .error .beyondArity ∧
    ∃ r, step s = .next { s with refused := some r, port := s.port.erase c, turn := s.turn + 1 } ∧
      (r = .arity ∨ (r = .bool ∧ s.xs = .notStarted ∧ c.op = 0x06 ∧ chkBoolOpt c.a0 = none) ∨
        (r = .afterExit ∧ s.xs = .running ∧ c.op ≠ 0x0A))

/-! ### The step -/

/-- R7, R57: the step of an agent that issues a command is exec of the instruction the command decodes to, the command taken from the
port and the turn counted. -/
def Obligations.StepRunsDecodedCommand : Prop :=
  ∀ (s : State) (c : RawCommand) (i : Instr), Live s → chooseAgent s = some (.issuer c) → decode (.command c) = .ok i →
    step s = exec i { s with port := s.port.erase c, turn := s.turn + 1 }

/-- R50, R56: the agent that steps is one that has a step; an issuing agent's command is the first of its own on the port, and taking it
leaves every other command in its order. -/
def Obligations.ScheduleKeepsProgramOrder : Prop :=
  ∀ s : State,
    (chooseAgent s = none ↔ s.port = [] ∧ s.phase = .idle ∧ s.queue = []) ∧
    (chooseAgent s = some .enc → s.phase ≠ .idle ∨ s.queue ≠ []) ∧
    (∀ c, chooseAgent s = some (.issuer c) → ∃ before after, s.port = before ++ c :: after ∧
      (∀ d ∈ before, d.src ≠ c.src) ∧ s.port.erase c = before ++ after)

/-- R31, R101 to R110: the step of ENC is its phase's step, the turn counted. That in a frame's phases this is exec of the frame
instruction (SOF, EOF, the LEDW of pixel `p`'s record in the snapshot, the LEDW whose word is in `w`) is the model's choice
(notes/assumptions/8.md): the rules give the steps, and the model makes each one exec of its frame. -/
def Obligations.StepRunsFrameInstruction : Prop :=
  ∀ s : State, Live s → chooseAgent s = some .enc →
    step s = encStep { s with turn := s.turn + 1 } ∧
    (s.phase = .fSofDat ∨ s.phase = .fSofHi ∨ s.phase = .fSofLo → step s = exec .sof { s with turn := s.turn + 1 }) ∧
    (∀ h : s.p < Config.pixels, s.phase = .fPxLoad →
      step s = exec (.ledw s.latch[s.p].br s.latch[s.p].b s.latch[s.p].g s.latch[s.p].r) { s with turn := s.turn + 1 }) ∧
    (∀ q : Pixel, s.w = ledWord q → (s.phase = .fBitDat ∨ s.phase = .fBitHi ∨ s.phase = .fBitLo) →
      step s = exec (.ledw q.br q.b q.g q.r) { s with turn := s.turn + 1 }) ∧
    (s.phase = .fEofDat ∨ s.phase = .fEofHi ∨ s.phase = .fEofLo → step s = exec .eof { s with turn := s.turn + 1 })

/-- R51, R143: in every write phase the frame instruction (one step of its frame: the model's choice, notes/assumptions/8.md) does to the
lines, and to the GPIO events of the trace, exactly what the one GPIO_WR of that phase does. -/
def Obligations.WritePhasesIssueOneGpioWr : Prop :=
  ∀ (s : State) (q : Pixel) (t : Nat) (o : Origin) (i : Instr) (l : Line) (v : Bool),
    Live s → s.cur = some (.flush t o) → s.hs l = .acq → phaseWrite s q = some (i, l, v) →
    ∃ a b, exec (.gpioWr l v) s = .next a ∧ exec i s = .next b ∧
      b.lvlClk = a.lvlClk ∧ b.lvlDat = a.lvlDat ∧ b.hsClk = a.hsClk ∧ b.hsDat = a.hsDat ∧
      b.answers = a.answers ∧ b.draws = a.draws ∧ gpioEvents b.trace = gpioEvents a.trace

/-! ### Pixel buffer commands -/

/-- R84: CLEAR. -/
def Obligations.ClearBlackensEveryPixel : Prop :=
  ∀ (src : Source) (s : State), Accepting s →
    ∃ t, exec (.clear src) s = .next t ∧
      (∀ i : Fin Config.pixels, t.buf[i] = ⟨0, 0, 0, s.buf[i].br⟩) ∧
      t = { s with buf := t.buf, trace := s.trace ++ [.ret src .clear .unit] }

/-- R85, R86: GET_PIXEL with a valid index returns the record and its brightness fraction, and writes nothing but the trace. That the RET
event holds the binary64 value the host receives is the model's choice (notes/assumptions/16.md). -/
def Obligations.GetPixelReturnsTheRecord : Prop :=
  ∀ (src : Source) (a : HostValue) (i : Fin Config.pixels) (s : State), Accepting s → chkIndex a = .ok i →
    exec (.getPixel src a) s =
      .next { s with
        trace := s.trace ++
          [.ret src .getPixel (.pixel s.buf[i].r s.buf[i].g s.buf[i].b (brightnessFraction s.buf[i].br))] }

/-- R88: SET_ALL with valid operands. -/
def Obligations.SetAllPaintsEveryPixel : Prop :=
  ∀ (src : Source) (a0 a1 a2 a3 : HostValue) (r g b : Byte) (v : Option Level5) (s : State), Accepting s →
    chkColour a0 = .ok r → chkColour a1 = .ok g → chkColour a2 = .ok b → chkBrOpt a3 = .ok v →
    ∃ t, exec (.setAll src a0 a1 a2 a3) s = .next t ∧
      (∀ i : Fin Config.pixels, t.buf[i] = ⟨r, g, b, v.getD s.buf[i].br⟩) ∧
      t = { s with buf := t.buf, trace := s.trace ++ [.ret src .setAll .unit] }

/-- R90: SET_PIXEL with valid operands; every other record is unchanged. -/
def Obligations.SetPixelPaintsOnePixel : Prop :=
  ∀ (src : Source) (a0 a1 a2 a3 a4 : HostValue) (i : Fin Config.pixels) (r g b : Byte) (v : Option Level5) (s : State),
    Accepting s → chkIndex a0 = .ok i → chkColour a1 = .ok r → chkColour a2 = .ok g → chkColour a3 = .ok b →
    chkBrOpt a4 = .ok v →
    ∃ t, exec (.setPixel src a0 a1 a2 a3 a4) s = .next t ∧
      (∀ m : Fin Config.pixels, t.buf[m] = if m = i then ⟨r, g, b, v.getD s.buf[i].br⟩ else s.buf[m]) ∧
      t = { s with buf := t.buf, trace := s.trace ++ [.ret src .setPixel .unit] }

/-- R92: SET_BRIGHTNESS with a valid operand. -/
def Obligations.SetBrightnessSetsEveryLevel : Prop :=
  ∀ (src : Source) (a : HostValue) (n : Level5) (s : State), Accepting s → chkBrReq a = .ok n →
    ∃ t, exec (.setBrightness src a) s = .next t ∧
      (∀ i : Fin Config.pixels, t.buf[i] = ⟨s.buf[i].r, s.buf[i].g, s.buf[i].b, n⟩) ∧
      t = { s with buf := t.buf, trace := s.trace ++ [.ret src .setBrightness .unit] }

/-- R94: PIXEL_COUNT. -/
def Obligations.PixelCountReturnsTheCount : Prop :=
  ∀ (src : Source) (s : State), Accepting s →
    exec (.pixelCount src) s = .next { s with trace := s.trace ++ [.ret src .pixelCount (.count 8)] }

/-- R80, R136: invalid operands leave the buffer and everything else unchanged and are reported in the same step. -/
def Obligations.InvalidOperandsWriteNothing : Prop :=
  ∀ (src : Source) (a0 a1 a2 a3 a4 : HostValue) (s : State), Accepting s →
    (failuresOf (chkIndex a0) ≠ [] →
      rejects src .getPixel (failuresOf (chkIndex a0)) s (exec (.getPixel src a0) s)) ∧
    (failuresOf (chkBrReq a0) ≠ [] →
      rejects src .setBrightness (failuresOf (chkBrReq a0)) s (exec (.setBrightness src a0) s)) ∧
    (∀ fails, fails = failuresOf (chkColour a0) ++ failuresOf (chkColour a1) ++ failuresOf (chkColour a2) ++
        failuresOf (chkBrOpt a3) → fails ≠ [] →
      rejects src .setAll fails s (exec (.setAll src a0 a1 a2 a3) s)) ∧
    (∀ fails, fails = failuresOf (chkIndex a0) ++ failuresOf (chkColour a1) ++ failuresOf (chkColour a2) ++
        failuresOf (chkColour a3) ++ failuresOf (chkBrOpt a4) → fails ≠ [] →
      rejects src .setPixel fails s (exec (.setPixel src a0 a1 a2 a3 a4) s))

/-- R61: the index check, against the number the operand stands for. -/
def Obligations.IndexCheckFollowsTheNumber : Prop :=
  (∀ a : HostValue, (∀ x, a ≠ .num x) → chkIndex a = .bad ⟨.type, .index⟩ []) ∧
  (∀ (x : Binary64) (i : Fin Config.pixels), binary64Real x = some (i.val : ℚ) → chkIndex (.num x) = .ok i) ∧
  (∀ x : Binary64, (∀ i : Fin Config.pixels, binary64Real x ≠ some (i.val : ℚ)) →
    chkIndex (.num x) = .bad ⟨.range, .index⟩ [])

/-- R62, R66: the colour check and `col8`, against the number the operand stands for. -/
def Obligations.ColourCheckFollowsTheNumber : Prop :=
  (∀ a : HostValue, (∀ x, a ≠ .num x) → chkColour a = .bad ⟨.type, .colour⟩ []) ∧
  (∀ (x : Binary64) (q : ℚ), binary64Real x = some q → 0 ≤ q → q ≤ 255 →
    ∃ c : Byte, chkColour (.num x) = .ok c ∧ (c.toNat : ℤ) = ⌊q⌋) ∧
  (∀ x : Binary64, (∀ q, binary64Real x = some q → ¬ (0 ≤ q ∧ q ≤ 255)) →
    chkColour (.num x) = .bad ⟨.range, .colour⟩ [])

/-- R63, R64: the brightness checks, against the number the operand stands for. -/
def Obligations.BrightnessChecksFollowTheNumber : Prop :=
  chkBrOpt .absent = .ok none ∧ chkBrReq .absent = .bad ⟨.type, .brightness⟩ [] ∧
  (∀ a : HostValue, a = .other ∨ (∃ b, a = .bool b) →
    chkBrOpt a = .bad ⟨.type, .brightness⟩ [] ∧ chkBrReq a = .bad ⟨.type, .brightness⟩ []) ∧
  (∀ (x : Binary64) (q : ℚ), binary64Real x = some q → 0 ≤ q → q ≤ 1 →
    ∃ n, chkBrReq (.num x) = .ok n ∧ chkBrOpt (.num x) = .ok (some n)) ∧
  (∀ x : Binary64, (∀ q, binary64Real x = some q → ¬ (0 ≤ q ∧ q ≤ 1)) →
    chkBrReq (.num x) = .bad ⟨.range, .brightness⟩ [] ∧ chkBrOpt (.num x) = .bad ⟨.range, .brightness⟩ [])

/-- R66, R17: the stored level is the floor of the binary64 product `31 ⊗ x`: the binary64 number nearest to the exact product, ties to
even. -/
def Obligations.BrightnessIsFloorOfRoundedProduct : Prop :=
  ∀ (x : Binary64) (q : ℚ), binary64Real x = some q → 0 ≤ q → q ≤ 1 →
    ∃ (n : Level5) (y : Binary64) (v : ℚ), chkBrReq (.num x) = .ok n ∧ IsNearest y (31 * q) ∧
      binary64Real y = some v ∧ (n.toNat : ℤ) = ⌊v⌋

/-- R86: the full table of `round3(br/31)`, as significant digits and their number of decimal places. -/
def Obligations.RoundThreeTable : Prop :=
  (List.range 32).map (fun n => round3 (BitVec.ofNat 5 n)) =
    [(0, 0), (323, 4), (645, 4), (968, 4), (129, 3), (161, 3), (194, 3), (226, 3),
      (258, 3), (290, 3), (323, 3), (355, 3), (387, 3), (419, 3), (452, 3), (484, 3),
      (516, 3), (548, 3), (581, 3), (613, 3), (645, 3), (677, 3), (710, 3), (742, 3),
      (774, 3), (806, 3), (839, 3), (871, 3), (903, 3), (935, 3), (968, 3), (100, 2)]

/-- R86: the host receives the binary64 value nearest to `round3(br/31)`, which is within half a unit of its last digit of `br/31`. -/
def Obligations.FractionIsNearestToRoundThree : Prop :=
  ∀ br : Level5, IsNearest (brightnessFraction br) (((round3 br).1 : ℚ) / 10 ^ (round3 br).2) ∧
    |((round3 br).1 : ℚ) / 10 ^ (round3 br).2 - (br.toNat : ℚ) / 31| ≤ 1 / (2 * 10 ^ (round3 br).2)

/-- R78: a decimal literal up to the largest finite number is the binary64 value nearest to it, ties to even. -/
def Obligations.DecimalLiteralsAreNearest : Prop :=
  ∀ (neg : Bool) (m d : Nat), (m : ℚ) / 10 ^ d ≤ (2 ^ 53 - 1) * 2 ^ 971 →
    IsNearest (nearestBinary64 neg m d) (if neg then -((m : ℚ) / 10 ^ d) else (m : ℚ) / 10 ^ d)

/-- R89: SET_ALL with valid operands leaves the buffer as SET_PIXEL for every index in sequence does. -/
def Obligations.SetAllEqualsSetPixelInSequence : Prop :=
  ∀ (src : Source) (idx : Fin Config.pixels → HostValue) (a1 a2 a3 a4 : HostValue) (r g b : Byte) (v : Option Level5)
    (s : State), Accepting s → (∀ i, chkIndex (idx i) = .ok i) →
    chkColour a1 = .ok r → chkColour a2 = .ok g → chkColour a3 = .ok b → chkBrOpt a4 = .ok v →
    ∃ t u, exec (.setAll src a1 a2 a3 a4) s = .next t ∧
      setEach src idx a1 a2 a3 a4 (List.finRange Config.pixels) s = some u ∧ t.buf = u.buf

/-- R91: SET_PIXEL with brightness omitted, then GET_PIXEL of the same index, returns the new colours and the fraction of the level held
before (as the binary64 value R86 gives the host: the model's choice, notes/assumptions/16.md). -/
def Obligations.SetPixelThenGetPixelReadsBack : Prop :=
  ∀ (src src' : Source) (a0 a1 a2 a3 : HostValue) (i : Fin Config.pixels) (r g b : Byte) (s : State), Accepting s →
    chkIndex a0 = .ok i → chkColour a1 = .ok r → chkColour a2 = .ok g → chkColour a3 = .ok b →
    ∃ t u, exec (.setPixel src a0 a1 a2 a3 .absent) s = .next t ∧ exec (.getPixel src' a0) t = .next u ∧
      u.trace = s.trace ++ [.ret src .setPixel .unit,
        .ret src' .getPixel (.pixel r g b (brightnessFraction s.buf[i].br))]

/-- R93: SET_BRIGHTNESS, then GET_PIXEL of any index, returns the fraction of the level set (as the binary64 value R86
gives the host: the model's choice, notes/assumptions/16.md) and the colours held before. -/
def Obligations.SetBrightnessThenGetPixelReadsBack : Prop :=
  ∀ (src src' : Source) (a a' : HostValue) (n : Level5) (i : Fin Config.pixels) (s : State), Accepting s →
    chkBrReq a = .ok n → chkIndex a' = .ok i →
    ∃ t u, exec (.setBrightness src a) s = .next t ∧ exec (.getPixel src' a') t = .next u ∧
      u.trace = s.trace ++ [.ret src .setBrightness .unit,
        .ret src' .getPixel (.pixel s.buf[i].r s.buf[i].g s.buf[i].b (brightnessFraction n))]

/-- R83: a command that omits brightness, valid or not, leaves every level as it was. -/
def Obligations.OmittedBrightnessNeverDrifts : Prop :=
  ∀ (src : Source) (a0 a1 a2 a3 : HostValue) (i : Instr) (s t : State),
    (i = .clear src ∨ i = .setAll src a0 a1 a2 .absent ∨ i = .setPixel src a0 a1 a2 a3 .absent) →
    exec i s = .next t → ∀ m : Fin Config.pixels, t.buf[m].br = s.buf[m].br

/-! ### Jobs, the exit sequence and refusals -/

/-- R65, R121: SET_CLEAR_ON_EXIT stores a boolean, `true` when its operand is omitted, and is refused on any other operand. -/
def Obligations.SetClearOnExitStoresOrIsRefused : Prop :=
  ∀ (src : Source) (s : State), Accepting s →
    (∀ b : Bool, exec (.setClearOnExit src (.bool b)) s =
      .next { s with clearOnExit := b, trace := s.trace ++ [.ret src .setClearOnExit .unit] }) ∧
    exec (.setClearOnExit src .absent) s =
      .next { s with clearOnExit := true, trace := s.trace ++ [.ret src .setClearOnExit .unit] } ∧
    exec (.setClearOnExit src .other) s = .next { s with refused := some .bool } ∧
    (∀ x, exec (.setClearOnExit src (.num x)) s = .next { s with refused := some .bool })

/-- R96, R122: SHOW and RELEASE queue a job under the current ticket and return the ticket at once, whatever the encoder does. For EXITSRC
the job's origin is `EXIT` (the model's choice, notes/assumptions/11.md). -/
def Obligations.ShowAndReleaseQueueAJob : Prop :=
  ∀ (src : Source) (o : Origin) (s : State), Accepting s →
    (∀ h, src = .host h → o = .host h) → (src = .exitSrc → o = .exit) →
    exec (.showFrame src) s = .next { s with
      queue := s.queue ++ [.flush s.nextTicket o], nextTicket := s.nextTicket + 1,
      trace := s.trace ++ [.ret src .showFrame (.ticket s.nextTicket)] } ∧
    exec (.release src) s = .next { s with
      queue := s.queue ++ [.release s.nextTicket o], nextTicket := s.nextTicket + 1,
      trace := s.trace ++ [.ret src .release (.ticket s.nextTicket)] }

/-- R127, R128: EXIT from any agent queues the exit sequence, and under `clearOnExit` clears the buffer and queues a flush first; the words
of the cleared buffer are all-off with the brightness kept. Delivered again, it changes nothing. -/
def Obligations.ExitQueuesTheExitSequence : Prop :=
  (∀ (src : Source) (s : State), Accepting s →
    (s.clearOnExit = false → exec (.exit src) s = .next { s with
      xs := .running, queue := s.queue ++ [.release s.nextTicket .exit, .exitMark],
      nextTicket := s.nextTicket + 1 }) ∧
    (s.clearOnExit = true → ∃ t, exec (.exit src) s = .next t ∧
      (∀ i : Fin Config.pixels, t.buf[i] = ⟨0, 0, 0, s.buf[i].br⟩ ∧
        ledWord t.buf[i] = 0xE0000000 ||| (s.buf[i].br.setWidth 32 <<< 24)) ∧
      t = { s with
        buf := t.buf, xs := .running, nextTicket := s.nextTicket + 2,
        queue := s.queue ++ [.flush s.nextTicket .exit, .release (s.nextTicket + 1) .exit, .exitMark] })) ∧
  (∀ (src : Source) (s : State), s.refused = none → s.xs ≠ .notStarted → exec (.exit src) s = .next s)

/-- R121, R146, R147: a command other than EXIT is refused with `REF_AFTER_EXIT` once EXIT has been accepted, whatever its operands:
`refused` is written and nothing else. R146 says so of hosts; that EXITSRC's commands are treated alike is the model's choice
(notes/assumptions/11.md). -/
def Obligations.CommandsAfterExitRefused : Prop :=
  ∀ (src : Source) (i : Instr) (s : State), s.refused = none → s.xs = .running → i.source? = some src →
    (∀ src', i ≠ .exit src') → exec i s = .next { s with refused := some .afterExit }

/-- R37, R147: after a refusal no agent and no instruction has a step. -/
def Obligations.RefusalStopsEverything : Prop :=
  ∀ (s : State) (r : RefReason), s.refused = some r →
    step s = .refused (.alreadyRefused r) ∧ ∀ i : Instr, exec i s = .refused (.alreadyRefused r)

/-! ### The encoder -/

/-- R95: with `phase = IDLE`, nothing refused and a job queued, ENC has a step, which makes the head of the queue the current job and enters
its first phase; with an empty queue it has none. -/
def Obligations.DispatchStartsTheHeadJob : Prop :=
  ∀ s : State, s.phase = .idle → s.refused = none →
    (∀ (job : Job) (rest : List Job), s.queue = job :: rest →
      .enc ∈ readyAgents s ∧
      encStep s = .next { s with
        cur := some job, queue := rest,
        phase := (match job with | .flush _ _ => .fStart | .release _ _ => .rClk | .exitMark => .xDone) }) ∧
    (s.queue = [] → .enc ∉ readyAgents s)

/-- R98, R111: `F_START` takes the snapshot under this hardware's `AT_START`; `F_DONE` completes the job. -/
def Obligations.FlushStartsWithSnapshotAndCompletes : Prop :=
  ∀ (s : State) (t : Nat) (o : Origin), s.cur = some (.flush t o) →
    (s.phase = .fStart → encStep s = .next { s with latch := s.buf, p := 0, phase := .fAcqClk }) ∧
    (s.phase = .fDone → encStep s =
      .next { s with trace := s.trace ++ [.done t .ok], cur := none, phase := .idle })

/-- R99, R100: the acquire phases, every branch. -/
def Obligations.AcquirePhases : Prop :=
  ∀ (s : State) (t : Nat) (o : Origin), s.cur = some (.flush t o) →
    (s.phase = .fAcqClk → (s.hsClk = .rel ∨ s.hsDat = .rel) → encStep s =
      .next { s with trace := s.trace ++ [.done t (.err .notAcquired)], cur := none, phase := .idle }) ∧
    (s.phase = .fAcqClk → s.hsClk = .unacq → s.hsDat ≠ .rel → gpioAnswer s = .ok → encStep s =
      .next { s with
        hsClk := .acq, lvlClk := .low, phase := .fAcqDat, trace := s.trace ++ [.acq .clk .ok],
        answers := s.answers.tail, draws := s.draws + 1 }) ∧
    (s.phase = .fAcqClk → s.hsClk = .unacq → s.hsDat ≠ .rel → gpioAnswer s = .fail → encStep s =
      .next { s with
        cur := none, phase := .idle,
        trace := s.trace ++ [.acq .clk .fail, .done t (.err (.acquireFailed .clk))],
        answers := s.answers.tail, draws := s.draws + 1 }) ∧
    (s.phase = .fAcqClk → s.hsClk = .acq → s.hsDat ≠ .rel → encStep s = .next { s with phase := .fAcqDat }) ∧
    (s.phase = .fAcqDat → s.hsDat = .unacq → gpioAnswer s = .ok → encStep s =
      .next { s with
        hsDat := .acq, lvlDat := .low, phase := .fSofDat, trace := s.trace ++ [.acq .dat .ok],
        answers := s.answers.tail, draws := s.draws + 1 }) ∧
    (s.phase = .fAcqDat → s.hsDat = .unacq → gpioAnswer s = .fail → encStep s =
      .next { s with
        cur := none, phase := .idle,
        trace := s.trace ++ [.acq .dat .fail, .done t (.err (.acquireFailed .dat))],
        answers := s.answers.tail, draws := s.draws + 1 }) ∧
    (s.phase = .fAcqDat → s.hsDat ≠ .unacq → encStep s = .next { s with phase := .fSofDat })

/-- R101, R102, R103: SOF, each of its steps whose write succeeds (one step of the frame an exec: the model's choice,
notes/assumptions/8.md). -/
def Obligations.SofStepsSendTheStartFrame : Prop :=
  ∀ (s : State) (t : Nat) (o : Origin), Live s → s.cur = some (.flush t o) → bothHeld s → gpioAnswer s = .ok →
    (s.phase = .fSofDat → exec .sof s = .next { s with
      lvlDat := .low, cnt := 0, phase := .fSofHi, trace := s.trace ++ [.wr .dat false .ok],
      answers := s.answers.tail, draws := s.draws + 1 }) ∧
    (s.phase = .fSofHi → exec .sof s = .next { s with
      lvlClk := .high, phase := .fSofLo, trace := s.trace ++ [.wr .clk true .ok],
      answers := s.answers.tail, draws := s.draws + 1 }) ∧
    (s.phase = .fSofLo → exec .sof s = .next { s with
      lvlClk := .low, cnt := s.cnt + 1, phase := if s.cnt + 1 = 32 then .fPxLoad else .fSofHi,
      trace := s.trace ++ [.wr .clk false .ok], answers := s.answers.tail, draws := s.draws + 1 })

/-- R104 to R107: LEDW, the load of its word and each of its steps whose write succeeds. That LEDW at `F_PX_LOAD` loads the word of its
own fields is the model's choice (notes/assumptions/8.md): R104 loads pixel `p`'s record, which StepRunsFrameInstruction hands it. -/
def Obligations.LedwStepsSendTheWord : Prop :=
  ∀ (s : State) (t : Nat) (o : Origin) (q : Pixel), Live s → s.cur = some (.flush t o) →
    (s.phase = .fPxLoad → exec (.ledw q.br q.b q.g q.r) s = .next { s with
    w := ledWord q, k := 0, sr := byteOf (ledWord q) 0, j := 0, phase := .fBitDat }) ∧
    (bothHeld s → gpioAnswer s = .ok → s.w = ledWord q →
      (s.phase = .fBitDat → exec (.ledw q.br q.b q.g q.r) s = .next { s with
        lvlDat := if s.sr.getLsbD 7 then .high else .low, phase := .fBitHi,
        trace := s.trace ++ [.wr .dat (s.sr.getLsbD 7) .ok], answers := s.answers.tail, draws := s.draws + 1 }) ∧
      (s.phase = .fBitHi → exec (.ledw q.br q.b q.g q.r) s = .next { s with
        lvlClk := .high, phase := .fBitLo, trace := s.trace ++ [.wr .clk true .ok],
        answers := s.answers.tail, draws := s.draws + 1 }) ∧
      (s.phase = .fBitLo → ∃ u, exec (.ledw q.br q.b q.g q.r) s = .next u ∧
        u = { s with
          lvlClk := .low, trace := s.trace ++ [.wr .clk false .ok], answers := s.answers.tail, draws := s.draws + 1,
          sr := u.sr, j := u.j, k := u.k, p := u.p, phase := u.phase } ∧
        (s.j + 1 < 8 → u.sr = s.sr <<< 1 ∧ u.j = s.j + 1 ∧ u.k = s.k ∧ u.p = s.p ∧ u.phase = .fBitDat) ∧
        (8 ≤ s.j + 1 → s.k < 3 →
          u.sr = byteOf s.w (s.k + 1) ∧ u.j = 0 ∧ u.k = s.k + 1 ∧ u.p = s.p ∧ u.phase = .fBitDat) ∧
        (8 ≤ s.j + 1 → 3 ≤ s.k → s.p < 7 →
          u.sr = s.sr <<< 1 ∧ u.j = s.j + 1 ∧ u.k = s.k ∧ u.p = s.p + 1 ∧ u.phase = .fPxLoad) ∧
        (8 ≤ s.j + 1 → 3 ≤ s.k → 7 ≤ s.p →
          u.sr = s.sr <<< 1 ∧ u.j = s.j + 1 ∧ u.k = s.k ∧ u.p = s.p ∧ u.phase = .fEofDat)))

/-- R108, R109, R110: EOF, each of its steps whose write succeeds (one step of the frame an exec: the model's choice,
notes/assumptions/8.md). -/
def Obligations.EofStepsSendTheEndFrame : Prop :=
  ∀ (s : State) (t : Nat) (o : Origin), Live s → s.cur = some (.flush t o) → bothHeld s → gpioAnswer s = .ok →
    (s.phase = .fEofDat → exec .eof s = .next { s with
      lvlDat := .low, cnt := 0, phase := .fEofHi, trace := s.trace ++ [.wr .dat false .ok],
      answers := s.answers.tail, draws := s.draws + 1 }) ∧
    (s.phase = .fEofHi → exec .eof s = .next { s with
      lvlClk := .high, phase := .fEofLo, trace := s.trace ++ [.wr .clk true .ok],
      answers := s.answers.tail, draws := s.draws + 1 }) ∧
    (s.phase = .fEofLo → exec .eof s = .next { s with
      lvlClk := .low, cnt := s.cnt + 1, phase := if s.cnt + 1 = 36 then .fDone else .fEofHi,
      trace := s.trace ++ [.wr .clk false .ok], answers := s.answers.tail, draws := s.draws + 1 })

/-- R112: a failed write of any flush phase leaves the line at `X`, reports the job and ends it; no further action of the job is issued
(one step of the frame an exec: the model's choice, notes/assumptions/8.md). -/
def Obligations.WriteFailureEndsTheFlush : Prop :=
  ∀ (s : State) (q : Pixel) (t : Nat) (o : Origin) (i : Instr) (l : Line) (v : Bool),
    Live s → s.cur = some (.flush t o) → s.hs l = .acq → phaseWrite s q = some (i, l, v) →
    gpioAnswer s = .fail →
    exec i s = .next (setLvl l .x { s with
      trace := s.trace ++ [.wr l v .fail, .done t (.err (.writeFailed l))], cur := none, phase := .idle,
      answers := s.answers.tail, draws := s.draws + 1 })

/-! ### GPIO actions -/

/-- R142, R99, R100: GPIO_ACQ of an unacquired line, both outcomes. That the instruction leaves an acquired line as it is and stops with a
fault on a released one is the model's choice (notes/assumptions/9.md). -/
def Obligations.GpioAcqAcquiresTheLine : Prop :=
  ∀ (l : Line) (s : State), Live s →
    (s.hs l = .unacq → gpioAnswer s = .ok → exec (.gpioAcq l) s = .next (setHs l .acq (setLvl l .low { s with
    trace := s.trace ++ [.acq l .ok], answers := s.answers.tail, draws := s.draws + 1 }))) ∧
    (s.hs l = .unacq → gpioAnswer s = .fail → exec (.gpioAcq l) s = .next { s with
    trace := s.trace ++ [.acq l .fail], answers := s.answers.tail, draws := s.draws + 1 }) ∧
    (s.hs l = .acq → exec (.gpioAcq l) s = .next s) ∧
    (s.hs l = .rel → exec (.gpioAcq l) s = .fault (.lineReleased l))

/-- R143: GPIO_WR of an acquired line, both outcomes. R143 says only that it is not issued on any other line: that the instruction stops
with a fault there is the model's choice (notes/assumptions/9.md). -/
def Obligations.GpioWrDrivesTheLine : Prop :=
  ∀ (l : Line) (v : Bool) (s : State), Live s →
    (s.hs l = .acq → gpioAnswer s = .ok →
      exec (.gpioWr l v) s = .next (setLvl l (if v then .high else .low) { s with
    trace := s.trace ++ [.wr l v .ok], answers := s.answers.tail, draws := s.draws + 1 })) ∧
    (s.hs l = .acq → gpioAnswer s = .fail → exec (.gpioWr l v) s = .next (setLvl l .x { s with
    trace := s.trace ++ [.wr l v .fail], answers := s.answers.tail, draws := s.draws + 1 })) ∧
    (s.hs l ≠ .acq → exec (.gpioWr l v) s = .fault (.lineNotAcquired l))

/-- R144, R123: GPIO_REL of an acquired line, both outcomes. On any other line there is no action and no change, as R123 and R126 say of a
release job: that the instruction does so too is the model's choice (notes/assumptions/9.md). -/
def Obligations.GpioRelReleasesTheLine : Prop :=
  ∀ (l : Line) (s : State), Live s →
    (s.hs l = .acq → gpioAnswer s = .ok → exec (.gpioRel l) s = .next (setHs l .rel (setLvl l .z { s with
    trace := s.trace ++ [.rel l .ok], answers := s.answers.tail, draws := s.draws + 1 }))) ∧
    (s.hs l = .acq → gpioAnswer s = .fail → exec (.gpioRel l) s = .next (setHs l .rel (setLvl l .x { s with
    trace := s.trace ++ [.rel l .fail], answers := s.answers.tail, draws := s.draws + 1 }))) ∧
    (s.hs l ≠ .acq → exec (.gpioRel l) s = .next s)

/-- R123, R124, R125: the release phases, every branch. -/
def Obligations.ReleasePhases : Prop :=
  ∀ (s : State) (t : Nat) (o : Origin), s.cur = some (.release t o) →
    (s.phase = .rClk → s.hsClk = .acq → encStep s = .next { s with
      hsClk := .rel, lvlClk := (if gpioAnswer s = .ok then .z else .x),
      rerr := (if gpioAnswer s = .ok then none else some .clk), phase := .rDat,
      trace := s.trace ++ [.rel .clk (gpioAnswer s)], answers := s.answers.tail, draws := s.draws + 1 }) ∧
    (s.phase = .rClk → s.hsClk ≠ .acq → encStep s = .next { s with rerr := none, phase := .rDat }) ∧
    (s.phase = .rDat → s.hsDat = .acq → encStep s = .next { s with
      hsDat := .rel, lvlDat := (if gpioAnswer s = .ok then .z else .x),
      rerr := (if gpioAnswer s = .ok then s.rerr else some (s.rerr.getD .dat)), phase := .rDone,
      trace := s.trace ++ [.rel .dat (gpioAnswer s)], answers := s.answers.tail, draws := s.draws + 1 }) ∧
    (s.phase = .rDat → s.hsDat ≠ .acq → encStep s = .next { s with phase := .rDone }) ∧
    (s.phase = .rDone → encStep s = .next { s with
      trace := s.trace ++ [.done t (match s.rerr with | none => .ok | some l => .err (.releaseFailed l))],
      cur := none, phase := .idle })

/-- R95, R126, R167: a release job with no line held issues no GPIO action and completes OK; its four steps change nothing but the trace, `rerr` and
the sequencing. -/
def Obligations.ReleaseOfUnheldLinesIsANoOp : Prop :=
  ∀ (s : State) (t : Nat) (o : Origin) (rest : List Job), OnlyEncoder s → s.phase = .idle →
    s.queue = .release t o :: rest → s.hsClk ≠ .acq → s.hsDat ≠ .acq →
    Sys2Proof.core.run 4 s = .next { s with
      queue := rest, cur := none, rerr := none, trace := s.trace ++ [.done t .ok], turn := s.turn + 4 }

/-- R129: `X_DONE` ends the exit sequence, and afterwards the machine stays as it is. -/
def Obligations.ExitMarkEndsTheSequence : Prop :=
  ∀ s : State, s.cur = some .exitMark → s.phase = .xDone → s.refused = none →
    ∃ t, encStep s = .next t ∧
      t = { s with xs := .done, trace := s.trace ++ [.exited], cur := none, phase := .idle } ∧ step t = .next t

/-! ### Whole frames -/

/-- R69, R101 to R103: from its first phase, 65 encoder steps with every write succeeding run the whole of SOF. -/
def Obligations.SofRunSendsThirtyTwoPulses : Prop :=
  ∀ (s : State) (t : Nat) (o : Origin) (rest : List GpioOutcome), OnlyEncoder s → s.phase = .fSofDat →
    s.cur = some (.flush t o) → bothHeld s → s.answers = List.replicate 65 .ok ++ rest →
    Sys2Proof.core.run 65 s = .next { s with
      lvlClk := .low, lvlDat := .low, cnt := 32, phase := .fPxLoad, trace := s.trace ++ framingRun 32,
      answers := rest, draws := s.draws + 65, turn := s.turn + 65 }

/-- R67, R104 to R107: 97 encoder steps with every write succeeding load pixel `p`'s word and send its 32 bits, bit 31 first. -/
def Obligations.LedwRunSendsThirtyTwoBits : Prop :=
  ∀ (s : State) (t : Nat) (o : Origin) (rest : List GpioOutcome) (h : s.p < Config.pixels), OnlyEncoder s →
    s.phase = .fPxLoad → s.cur = some (.flush t o) → bothHeld s → s.answers = List.replicate 96 .ok ++ rest →
    Sys2Proof.core.run 97 s = .next { s with
      lvlClk := .low, lvlDat := levelOf ((ledWord s.latch[s.p]).getLsbD 0),
      w := ledWord s.latch[s.p], k := 3, j := 8, sr := 0,
      p := (if s.p < 7 then s.p + 1 else s.p), phase := (if s.p < 7 then .fPxLoad else .fEofDat),
      trace := s.trace ++ wordWrites (ledWord s.latch[s.p]),
      answers := rest, draws := s.draws + 96, turn := s.turn + 97 }

/-- R70, R108 to R110: 73 encoder steps with every write succeeding run the whole of EOF. -/
def Obligations.EofRunSendsThirtySixPulses : Prop :=
  ∀ (s : State) (t : Nat) (o : Origin) (rest : List GpioOutcome), OnlyEncoder s → s.phase = .fEofDat →
    s.cur = some (.flush t o) → bothHeld s → s.answers = List.replicate 73 .ok ++ rest →
    Sys2Proof.core.run 73 s = .next { s with
      lvlClk := .low, lvlDat := .low, cnt := 36, phase := .fDone, trace := s.trace ++ framingRun 36,
      answers := rest, draws := s.draws + 73, turn := s.turn + 73 }

/-- R116, R115, R114: a flush job of which no line is released and every GPIO action succeeds acquires the lines that were `UNACQ`, clock first,
sends exactly the 906 writes of the buffer as it stood at `F_START`, then completes OK with both lines held and low, in 918 encoder
steps; the buffer is not written. The first flush after reset (S8) acquires both lines, a later one none. -/
def Obligations.FlushSendsTheWholeFrame : Prop :=
  ∀ (s : State) (t : Nat) (o : Origin) (rest : List GpioOutcome) (acqs : List Event), OnlyEncoder s → s.phase = .fStart →
    s.cur = some (.flush t o) → s.hsClk ≠ .rel → s.hsDat ≠ .rel →
    acqs = (if s.hsClk = .unacq then [.acq .clk .ok] else []) ++ (if s.hsDat = .unacq then [.acq .dat .ok] else []) →
    s.answers = List.replicate (acqs.length + 906) .ok ++ rest →
    Sys2Proof.core.run 918 s = .next { s with
      latch := s.buf, hsClk := .acq, hsDat := .acq, lvlClk := .low, lvlDat := .low, cnt := 36, p := 7, k := 3, j := 8,
      sr := 0, w := ledWord (s.buf[7]), phase := .idle, cur := none,
      trace := s.trace ++ acqs ++ frameWrites s.buf ++ [.done t .ok],
      answers := rest, draws := s.draws + (acqs.length + 906), turn := s.turn + 918 }

/-- R71, R72, R116, R117: the writes of a frame are 906; write `65 + 96p + 24k + 3j` puts bit `7 - j` of byte `k` of pixel `p`'s word on the
data line and the next two pulse the clock; the bits they carry are the 324 of the frame. -/
def Obligations.FrameWritesCarryTheFrame : Prop :=
  ∀ q : Pixels,
    (frameWrites q).length = 906 ∧ (frameBits q).length = 324 ∧
    (∀ level : Bool, clockedBits level (frameWrites q) = frameBits q) ∧
    (∀ (p : Fin Config.pixels) (k : Fin 4) (j : Fin 8),
      (frameWrites q)[65 + 96 * p.val + 24 * k.val + 3 * j.val]? =
        some (.wr .dat ((byteOf (ledWord q[p]) k).getLsbD (7 - j)) .ok) ∧
      (frameWrites q)[65 + 96 * p.val + 24 * k.val + 3 * j.val + 1]? = some (.wr .clk true .ok) ∧
      (frameWrites q)[65 + 96 * p.val + 24 * k.val + 3 * j.val + 2]? = some (.wr .clk false .ok))

/-! ### Whole-machine rules -/

/-- R46, R81, R114: no command touches a line or the encoder's registers, and no step of ENC writes the buffer, `clearOnExit`, the ticket
counter or the refusal. -/
def Obligations.CommandsAndEncoderKeepApart : Prop :=
  (∀ (i : Instr) (src : Source) (s t : State), i.source? = some src → exec i s = .next t →
    t.hsClk = s.hsClk ∧ t.hsDat = s.hsDat ∧ t.lvlClk = s.lvlClk ∧ t.lvlDat = s.lvlDat ∧ t.phase = s.phase ∧
    t.cnt = s.cnt ∧ t.p = s.p ∧ t.k = s.k ∧ t.j = s.j ∧ t.sr = s.sr ∧ t.w = s.w ∧ t.rerr = s.rerr ∧
    t.latch = s.latch ∧ t.cur = s.cur ∧ t.answers = s.answers ∧ gpioEvents t.trace = gpioEvents s.trace) ∧
  (∀ s t : State, encStep s = .next t →
    t.buf = s.buf ∧ t.clearOnExit = s.clearOnExit ∧ t.nextTicket = s.nextTicket ∧ t.refused = s.refused ∧
    t.port = s.port)

/-- R38: every step keeps the trace it had and adds at its end. -/
def Obligations.TraceOnlyGrows : Prop :=
  ∀ s t : State, step s = .next t → s.trace <+: t.trace

/-- R118, R95, R123 to R125, R129, R28: every step of ENC, while it is busy, follows the transition table, and every step of the machine
moves a handle only from `UNACQ` to `ACQ` or from `ACQ` to `REL`. -/
def Obligations.PhasesAndHandlesMoveLegally : Prop :=
  (∀ s t : State, s.phase ≠ .idle ∨ s.queue ≠ [] → encStep s = .next t → t.phase ∈ phaseSuccessors s.phase) ∧
  (∀ (s t : State) (l : Line), step s = .next t →
    t.hs l = s.hs l ∨ (s.hs l = .unacq ∧ t.hs l = .acq) ∨ (s.hs l = .acq ∧ t.hs l = .rel))

/-- R120, R148: from any state that meets the invariant, a job in progress ends within 918 encoder steps, whatever the GPIO outcomes, and the
queue behind it is as it was. -/
def Obligations.EveryJobEnds : Prop :=
  ∀ s : State, Inv s → OnlyEncoder s → s.phase ≠ .idle →
    ∃ (n : Nat) (t : State), n ≤ 918 ∧ Sys2Proof.core.run n s = .next t ∧ t.phase = .idle ∧ t.cur = none ∧
      t.queue = s.queue
end

