-- ==== Sys2Proof/Laws/State.lean ====
section
/-! SUPPORT. What each named update of the state does to each field, every lemma true by rfl or by the line it is given. -/

namespace Sys2Proof.Machine

/-! ### emit -/

@[simp] theorem emit_buf (e : Event) (s : State) : (emit e s).buf = s.buf := rfl
@[simp] theorem emit_clearOnExit (e : Event) (s : State) : (emit e s).clearOnExit = s.clearOnExit := rfl
@[simp] theorem emit_hsClk (e : Event) (s : State) : (emit e s).hsClk = s.hsClk := rfl
@[simp] theorem emit_hsDat (e : Event) (s : State) : (emit e s).hsDat = s.hsDat := rfl
@[simp] theorem emit_lvlClk (e : Event) (s : State) : (emit e s).lvlClk = s.lvlClk := rfl
@[simp] theorem emit_lvlDat (e : Event) (s : State) : (emit e s).lvlDat = s.lvlDat := rfl
@[simp] theorem emit_phase (e : Event) (s : State) : (emit e s).phase = s.phase := rfl
@[simp] theorem emit_cnt (e : Event) (s : State) : (emit e s).cnt = s.cnt := rfl
@[simp] theorem emit_p (e : Event) (s : State) : (emit e s).p = s.p := rfl
@[simp] theorem emit_k (e : Event) (s : State) : (emit e s).k = s.k := rfl
@[simp] theorem emit_j (e : Event) (s : State) : (emit e s).j = s.j := rfl
@[simp] theorem emit_sr (e : Event) (s : State) : (emit e s).sr = s.sr := rfl
@[simp] theorem emit_w (e : Event) (s : State) : (emit e s).w = s.w := rfl
@[simp] theorem emit_rerr (e : Event) (s : State) : (emit e s).rerr = s.rerr := rfl
@[simp] theorem emit_latch (e : Event) (s : State) : (emit e s).latch = s.latch := rfl
@[simp] theorem emit_queue (e : Event) (s : State) : (emit e s).queue = s.queue := rfl
@[simp] theorem emit_cur (e : Event) (s : State) : (emit e s).cur = s.cur := rfl
@[simp] theorem emit_nextTicket (e : Event) (s : State) : (emit e s).nextTicket = s.nextTicket := rfl
@[simp] theorem emit_xs (e : Event) (s : State) : (emit e s).xs = s.xs := rfl
@[simp] theorem emit_refused (e : Event) (s : State) : (emit e s).refused = s.refused := rfl
@[simp] theorem emit_trace (e : Event) (s : State) : (emit e s).trace = s.trace ++ [e] := rfl
@[simp] theorem emit_port (e : Event) (s : State) : (emit e s).port = s.port := rfl
@[simp] theorem emit_answers (e : Event) (s : State) : (emit e s).answers = s.answers := rfl
@[simp] theorem emit_draws (e : Event) (s : State) : (emit e s).draws = s.draws := rfl
@[simp] theorem emit_turn (e : Event) (s : State) : (emit e s).turn = s.turn := rfl

/-! ### afterDraw -/

@[simp] theorem afterDraw_buf (s : State) : (afterDraw s).buf = s.buf := rfl
@[simp] theorem afterDraw_clearOnExit (s : State) : (afterDraw s).clearOnExit = s.clearOnExit := rfl
@[simp] theorem afterDraw_hsClk (s : State) : (afterDraw s).hsClk = s.hsClk := rfl
@[simp] theorem afterDraw_hsDat (s : State) : (afterDraw s).hsDat = s.hsDat := rfl
@[simp] theorem afterDraw_lvlClk (s : State) : (afterDraw s).lvlClk = s.lvlClk := rfl
@[simp] theorem afterDraw_lvlDat (s : State) : (afterDraw s).lvlDat = s.lvlDat := rfl
@[simp] theorem afterDraw_phase (s : State) : (afterDraw s).phase = s.phase := rfl
@[simp] theorem afterDraw_cnt (s : State) : (afterDraw s).cnt = s.cnt := rfl
@[simp] theorem afterDraw_p (s : State) : (afterDraw s).p = s.p := rfl
@[simp] theorem afterDraw_k (s : State) : (afterDraw s).k = s.k := rfl
@[simp] theorem afterDraw_j (s : State) : (afterDraw s).j = s.j := rfl
@[simp] theorem afterDraw_sr (s : State) : (afterDraw s).sr = s.sr := rfl
@[simp] theorem afterDraw_w (s : State) : (afterDraw s).w = s.w := rfl
@[simp] theorem afterDraw_rerr (s : State) : (afterDraw s).rerr = s.rerr := rfl
@[simp] theorem afterDraw_latch (s : State) : (afterDraw s).latch = s.latch := rfl
@[simp] theorem afterDraw_queue (s : State) : (afterDraw s).queue = s.queue := rfl
@[simp] theorem afterDraw_cur (s : State) : (afterDraw s).cur = s.cur := rfl
@[simp] theorem afterDraw_nextTicket (s : State) : (afterDraw s).nextTicket = s.nextTicket := rfl
@[simp] theorem afterDraw_xs (s : State) : (afterDraw s).xs = s.xs := rfl
@[simp] theorem afterDraw_refused (s : State) : (afterDraw s).refused = s.refused := rfl
@[simp] theorem afterDraw_trace (s : State) : (afterDraw s).trace = s.trace := rfl
@[simp] theorem afterDraw_port (s : State) : (afterDraw s).port = s.port := rfl
@[simp] theorem afterDraw_answers (s : State) : (afterDraw s).answers = s.answers.tail := rfl
@[simp] theorem afterDraw_draws (s : State) : (afterDraw s).draws = s.draws + 1 := rfl
@[simp] theorem afterDraw_turn (s : State) : (afterDraw s).turn = s.turn := rfl

/-! ### advanceTurn -/

@[simp] theorem advanceTurn_buf (s : State) : (advanceTurn s).buf = s.buf := rfl
@[simp] theorem advanceTurn_clearOnExit (s : State) : (advanceTurn s).clearOnExit = s.clearOnExit := rfl
@[simp] theorem advanceTurn_hsClk (s : State) : (advanceTurn s).hsClk = s.hsClk := rfl
@[simp] theorem advanceTurn_hsDat (s : State) : (advanceTurn s).hsDat = s.hsDat := rfl
@[simp] theorem advanceTurn_lvlClk (s : State) : (advanceTurn s).lvlClk = s.lvlClk := rfl
@[simp] theorem advanceTurn_lvlDat (s : State) : (advanceTurn s).lvlDat = s.lvlDat := rfl
@[simp] theorem advanceTurn_phase (s : State) : (advanceTurn s).phase = s.phase := rfl
@[simp] theorem advanceTurn_cnt (s : State) : (advanceTurn s).cnt = s.cnt := rfl
@[simp] theorem advanceTurn_p (s : State) : (advanceTurn s).p = s.p := rfl
@[simp] theorem advanceTurn_k (s : State) : (advanceTurn s).k = s.k := rfl
@[simp] theorem advanceTurn_j (s : State) : (advanceTurn s).j = s.j := rfl
@[simp] theorem advanceTurn_sr (s : State) : (advanceTurn s).sr = s.sr := rfl
@[simp] theorem advanceTurn_w (s : State) : (advanceTurn s).w = s.w := rfl
@[simp] theorem advanceTurn_rerr (s : State) : (advanceTurn s).rerr = s.rerr := rfl
@[simp] theorem advanceTurn_latch (s : State) : (advanceTurn s).latch = s.latch := rfl
@[simp] theorem advanceTurn_queue (s : State) : (advanceTurn s).queue = s.queue := rfl
@[simp] theorem advanceTurn_cur (s : State) : (advanceTurn s).cur = s.cur := rfl
@[simp] theorem advanceTurn_nextTicket (s : State) : (advanceTurn s).nextTicket = s.nextTicket := rfl
@[simp] theorem advanceTurn_xs (s : State) : (advanceTurn s).xs = s.xs := rfl
@[simp] theorem advanceTurn_refused (s : State) : (advanceTurn s).refused = s.refused := rfl
@[simp] theorem advanceTurn_trace (s : State) : (advanceTurn s).trace = s.trace := rfl
@[simp] theorem advanceTurn_port (s : State) : (advanceTurn s).port = s.port := rfl
@[simp] theorem advanceTurn_answers (s : State) : (advanceTurn s).answers = s.answers := rfl
@[simp] theorem advanceTurn_draws (s : State) : (advanceTurn s).draws = s.draws := rfl
@[simp] theorem advanceTurn_turn (s : State) : (advanceTurn s).turn = s.turn + 1 := rfl

/-! ### bufWrite -/

@[simp] theorem bufWrite_buf (i : Fin Config.pixels) (q : Pixel) (s : State) : (bufWrite i q s).buf = s.buf.set i q := rfl
@[simp] theorem bufWrite_clearOnExit (i : Fin Config.pixels) (q : Pixel) (s : State) : (bufWrite i q s).clearOnExit = s.clearOnExit := rfl
@[simp] theorem bufWrite_hsClk (i : Fin Config.pixels) (q : Pixel) (s : State) : (bufWrite i q s).hsClk = s.hsClk := rfl
@[simp] theorem bufWrite_hsDat (i : Fin Config.pixels) (q : Pixel) (s : State) : (bufWrite i q s).hsDat = s.hsDat := rfl
@[simp] theorem bufWrite_lvlClk (i : Fin Config.pixels) (q : Pixel) (s : State) : (bufWrite i q s).lvlClk = s.lvlClk := rfl
@[simp] theorem bufWrite_lvlDat (i : Fin Config.pixels) (q : Pixel) (s : State) : (bufWrite i q s).lvlDat = s.lvlDat := rfl
@[simp] theorem bufWrite_phase (i : Fin Config.pixels) (q : Pixel) (s : State) : (bufWrite i q s).phase = s.phase := rfl
@[simp] theorem bufWrite_cnt (i : Fin Config.pixels) (q : Pixel) (s : State) : (bufWrite i q s).cnt = s.cnt := rfl
@[simp] theorem bufWrite_p (i : Fin Config.pixels) (q : Pixel) (s : State) : (bufWrite i q s).p = s.p := rfl
@[simp] theorem bufWrite_k (i : Fin Config.pixels) (q : Pixel) (s : State) : (bufWrite i q s).k = s.k := rfl
@[simp] theorem bufWrite_j (i : Fin Config.pixels) (q : Pixel) (s : State) : (bufWrite i q s).j = s.j := rfl
@[simp] theorem bufWrite_sr (i : Fin Config.pixels) (q : Pixel) (s : State) : (bufWrite i q s).sr = s.sr := rfl
@[simp] theorem bufWrite_w (i : Fin Config.pixels) (q : Pixel) (s : State) : (bufWrite i q s).w = s.w := rfl
@[simp] theorem bufWrite_rerr (i : Fin Config.pixels) (q : Pixel) (s : State) : (bufWrite i q s).rerr = s.rerr := rfl
@[simp] theorem bufWrite_latch (i : Fin Config.pixels) (q : Pixel) (s : State) : (bufWrite i q s).latch = s.latch := rfl
@[simp] theorem bufWrite_queue (i : Fin Config.pixels) (q : Pixel) (s : State) : (bufWrite i q s).queue = s.queue := rfl
@[simp] theorem bufWrite_cur (i : Fin Config.pixels) (q : Pixel) (s : State) : (bufWrite i q s).cur = s.cur := rfl
@[simp] theorem bufWrite_nextTicket (i : Fin Config.pixels) (q : Pixel) (s : State) : (bufWrite i q s).nextTicket = s.nextTicket := rfl
@[simp] theorem bufWrite_xs (i : Fin Config.pixels) (q : Pixel) (s : State) : (bufWrite i q s).xs = s.xs := rfl
@[simp] theorem bufWrite_refused (i : Fin Config.pixels) (q : Pixel) (s : State) : (bufWrite i q s).refused = s.refused := rfl
@[simp] theorem bufWrite_trace (i : Fin Config.pixels) (q : Pixel) (s : State) : (bufWrite i q s).trace = s.trace := rfl
@[simp] theorem bufWrite_port (i : Fin Config.pixels) (q : Pixel) (s : State) : (bufWrite i q s).port = s.port := rfl
@[simp] theorem bufWrite_answers (i : Fin Config.pixels) (q : Pixel) (s : State) : (bufWrite i q s).answers = s.answers := rfl
@[simp] theorem bufWrite_draws (i : Fin Config.pixels) (q : Pixel) (s : State) : (bufWrite i q s).draws = s.draws := rfl
@[simp] theorem bufWrite_turn (i : Fin Config.pixels) (q : Pixel) (s : State) : (bufWrite i q s).turn = s.turn := rfl

/-! ### clearColours -/

@[simp] theorem clearColours_buf (s : State) : (clearColours s).buf = mapPixels blackened s.buf := rfl
@[simp] theorem clearColours_clearOnExit (s : State) : (clearColours s).clearOnExit = s.clearOnExit := rfl
@[simp] theorem clearColours_hsClk (s : State) : (clearColours s).hsClk = s.hsClk := rfl
@[simp] theorem clearColours_hsDat (s : State) : (clearColours s).hsDat = s.hsDat := rfl
@[simp] theorem clearColours_lvlClk (s : State) : (clearColours s).lvlClk = s.lvlClk := rfl
@[simp] theorem clearColours_lvlDat (s : State) : (clearColours s).lvlDat = s.lvlDat := rfl
@[simp] theorem clearColours_phase (s : State) : (clearColours s).phase = s.phase := rfl
@[simp] theorem clearColours_cnt (s : State) : (clearColours s).cnt = s.cnt := rfl
@[simp] theorem clearColours_p (s : State) : (clearColours s).p = s.p := rfl
@[simp] theorem clearColours_k (s : State) : (clearColours s).k = s.k := rfl
@[simp] theorem clearColours_j (s : State) : (clearColours s).j = s.j := rfl
@[simp] theorem clearColours_sr (s : State) : (clearColours s).sr = s.sr := rfl
@[simp] theorem clearColours_w (s : State) : (clearColours s).w = s.w := rfl
@[simp] theorem clearColours_rerr (s : State) : (clearColours s).rerr = s.rerr := rfl
@[simp] theorem clearColours_latch (s : State) : (clearColours s).latch = s.latch := rfl
@[simp] theorem clearColours_queue (s : State) : (clearColours s).queue = s.queue := rfl
@[simp] theorem clearColours_cur (s : State) : (clearColours s).cur = s.cur := rfl
@[simp] theorem clearColours_nextTicket (s : State) : (clearColours s).nextTicket = s.nextTicket := rfl
@[simp] theorem clearColours_xs (s : State) : (clearColours s).xs = s.xs := rfl
@[simp] theorem clearColours_refused (s : State) : (clearColours s).refused = s.refused := rfl
@[simp] theorem clearColours_trace (s : State) : (clearColours s).trace = s.trace := rfl
@[simp] theorem clearColours_port (s : State) : (clearColours s).port = s.port := rfl
@[simp] theorem clearColours_answers (s : State) : (clearColours s).answers = s.answers := rfl
@[simp] theorem clearColours_draws (s : State) : (clearColours s).draws = s.draws := rfl
@[simp] theorem clearColours_turn (s : State) : (clearColours s).turn = s.turn := rfl

/-! ### enqueue -/

@[simp] theorem enqueue_buf (job : Job) (s : State) : (enqueue job s).buf = s.buf := rfl
@[simp] theorem enqueue_clearOnExit (job : Job) (s : State) : (enqueue job s).clearOnExit = s.clearOnExit := rfl
@[simp] theorem enqueue_hsClk (job : Job) (s : State) : (enqueue job s).hsClk = s.hsClk := rfl
@[simp] theorem enqueue_hsDat (job : Job) (s : State) : (enqueue job s).hsDat = s.hsDat := rfl
@[simp] theorem enqueue_lvlClk (job : Job) (s : State) : (enqueue job s).lvlClk = s.lvlClk := rfl
@[simp] theorem enqueue_lvlDat (job : Job) (s : State) : (enqueue job s).lvlDat = s.lvlDat := rfl
@[simp] theorem enqueue_phase (job : Job) (s : State) : (enqueue job s).phase = s.phase := rfl
@[simp] theorem enqueue_cnt (job : Job) (s : State) : (enqueue job s).cnt = s.cnt := rfl
@[simp] theorem enqueue_p (job : Job) (s : State) : (enqueue job s).p = s.p := rfl
@[simp] theorem enqueue_k (job : Job) (s : State) : (enqueue job s).k = s.k := rfl
@[simp] theorem enqueue_j (job : Job) (s : State) : (enqueue job s).j = s.j := rfl
@[simp] theorem enqueue_sr (job : Job) (s : State) : (enqueue job s).sr = s.sr := rfl
@[simp] theorem enqueue_w (job : Job) (s : State) : (enqueue job s).w = s.w := rfl
@[simp] theorem enqueue_rerr (job : Job) (s : State) : (enqueue job s).rerr = s.rerr := rfl
@[simp] theorem enqueue_latch (job : Job) (s : State) : (enqueue job s).latch = s.latch := rfl
@[simp] theorem enqueue_queue (job : Job) (s : State) : (enqueue job s).queue = s.queue ++ [job] := rfl
@[simp] theorem enqueue_cur (job : Job) (s : State) : (enqueue job s).cur = s.cur := rfl
@[simp] theorem enqueue_nextTicket (job : Job) (s : State) : (enqueue job s).nextTicket = s.nextTicket := rfl
@[simp] theorem enqueue_xs (job : Job) (s : State) : (enqueue job s).xs = s.xs := rfl
@[simp] theorem enqueue_refused (job : Job) (s : State) : (enqueue job s).refused = s.refused := rfl
@[simp] theorem enqueue_trace (job : Job) (s : State) : (enqueue job s).trace = s.trace := rfl
@[simp] theorem enqueue_port (job : Job) (s : State) : (enqueue job s).port = s.port := rfl
@[simp] theorem enqueue_answers (job : Job) (s : State) : (enqueue job s).answers = s.answers := rfl
@[simp] theorem enqueue_draws (job : Job) (s : State) : (enqueue job s).draws = s.draws := rfl
@[simp] theorem enqueue_turn (job : Job) (s : State) : (enqueue job s).turn = s.turn := rfl

/-! ### takeTicket -/

@[simp] theorem takeTicket_buf (s : State) : (takeTicket s).buf = s.buf := rfl
@[simp] theorem takeTicket_clearOnExit (s : State) : (takeTicket s).clearOnExit = s.clearOnExit := rfl
@[simp] theorem takeTicket_hsClk (s : State) : (takeTicket s).hsClk = s.hsClk := rfl
@[simp] theorem takeTicket_hsDat (s : State) : (takeTicket s).hsDat = s.hsDat := rfl
@[simp] theorem takeTicket_lvlClk (s : State) : (takeTicket s).lvlClk = s.lvlClk := rfl
@[simp] theorem takeTicket_lvlDat (s : State) : (takeTicket s).lvlDat = s.lvlDat := rfl
@[simp] theorem takeTicket_phase (s : State) : (takeTicket s).phase = s.phase := rfl
@[simp] theorem takeTicket_cnt (s : State) : (takeTicket s).cnt = s.cnt := rfl
@[simp] theorem takeTicket_p (s : State) : (takeTicket s).p = s.p := rfl
@[simp] theorem takeTicket_k (s : State) : (takeTicket s).k = s.k := rfl
@[simp] theorem takeTicket_j (s : State) : (takeTicket s).j = s.j := rfl
@[simp] theorem takeTicket_sr (s : State) : (takeTicket s).sr = s.sr := rfl
@[simp] theorem takeTicket_w (s : State) : (takeTicket s).w = s.w := rfl
@[simp] theorem takeTicket_rerr (s : State) : (takeTicket s).rerr = s.rerr := rfl
@[simp] theorem takeTicket_latch (s : State) : (takeTicket s).latch = s.latch := rfl
@[simp] theorem takeTicket_queue (s : State) : (takeTicket s).queue = s.queue := rfl
@[simp] theorem takeTicket_cur (s : State) : (takeTicket s).cur = s.cur := rfl
@[simp] theorem takeTicket_nextTicket (s : State) : (takeTicket s).nextTicket = s.nextTicket + 1 := rfl
@[simp] theorem takeTicket_xs (s : State) : (takeTicket s).xs = s.xs := rfl
@[simp] theorem takeTicket_refused (s : State) : (takeTicket s).refused = s.refused := rfl
@[simp] theorem takeTicket_trace (s : State) : (takeTicket s).trace = s.trace := rfl
@[simp] theorem takeTicket_port (s : State) : (takeTicket s).port = s.port := rfl
@[simp] theorem takeTicket_answers (s : State) : (takeTicket s).answers = s.answers := rfl
@[simp] theorem takeTicket_draws (s : State) : (takeTicket s).draws = s.draws := rfl
@[simp] theorem takeTicket_turn (s : State) : (takeTicket s).turn = s.turn := rfl

/-! ### endJob -/

@[simp] theorem endJob_buf (t : Nat) (st : Status) (s : State) : (endJob t st s).buf = s.buf := rfl
@[simp] theorem endJob_clearOnExit (t : Nat) (st : Status) (s : State) : (endJob t st s).clearOnExit = s.clearOnExit := rfl
@[simp] theorem endJob_hsClk (t : Nat) (st : Status) (s : State) : (endJob t st s).hsClk = s.hsClk := rfl
@[simp] theorem endJob_hsDat (t : Nat) (st : Status) (s : State) : (endJob t st s).hsDat = s.hsDat := rfl
@[simp] theorem endJob_lvlClk (t : Nat) (st : Status) (s : State) : (endJob t st s).lvlClk = s.lvlClk := rfl
@[simp] theorem endJob_lvlDat (t : Nat) (st : Status) (s : State) : (endJob t st s).lvlDat = s.lvlDat := rfl
@[simp] theorem endJob_phase (t : Nat) (st : Status) (s : State) : (endJob t st s).phase = .idle := rfl
@[simp] theorem endJob_cnt (t : Nat) (st : Status) (s : State) : (endJob t st s).cnt = s.cnt := rfl
@[simp] theorem endJob_p (t : Nat) (st : Status) (s : State) : (endJob t st s).p = s.p := rfl
@[simp] theorem endJob_k (t : Nat) (st : Status) (s : State) : (endJob t st s).k = s.k := rfl
@[simp] theorem endJob_j (t : Nat) (st : Status) (s : State) : (endJob t st s).j = s.j := rfl
@[simp] theorem endJob_sr (t : Nat) (st : Status) (s : State) : (endJob t st s).sr = s.sr := rfl
@[simp] theorem endJob_w (t : Nat) (st : Status) (s : State) : (endJob t st s).w = s.w := rfl
@[simp] theorem endJob_rerr (t : Nat) (st : Status) (s : State) : (endJob t st s).rerr = s.rerr := rfl
@[simp] theorem endJob_latch (t : Nat) (st : Status) (s : State) : (endJob t st s).latch = s.latch := rfl
@[simp] theorem endJob_queue (t : Nat) (st : Status) (s : State) : (endJob t st s).queue = s.queue := rfl
@[simp] theorem endJob_cur (t : Nat) (st : Status) (s : State) : (endJob t st s).cur = none := rfl
@[simp] theorem endJob_nextTicket (t : Nat) (st : Status) (s : State) : (endJob t st s).nextTicket = s.nextTicket := rfl
@[simp] theorem endJob_xs (t : Nat) (st : Status) (s : State) : (endJob t st s).xs = s.xs := rfl
@[simp] theorem endJob_refused (t : Nat) (st : Status) (s : State) : (endJob t st s).refused = s.refused := rfl
@[simp] theorem endJob_trace (t : Nat) (st : Status) (s : State) : (endJob t st s).trace = s.trace ++ [.done t st] := rfl
@[simp] theorem endJob_port (t : Nat) (st : Status) (s : State) : (endJob t st s).port = s.port := rfl
@[simp] theorem endJob_answers (t : Nat) (st : Status) (s : State) : (endJob t st s).answers = s.answers := rfl
@[simp] theorem endJob_draws (t : Nat) (st : Status) (s : State) : (endJob t st s).draws = s.draws := rfl
@[simp] theorem endJob_turn (t : Nat) (st : Status) (s : State) : (endJob t st s).turn = s.turn := rfl

/-! ### takeCommand -/

@[simp] theorem takeCommand_buf (c : RawCommand) (s : State) : (takeCommand c s).buf = s.buf := rfl
@[simp] theorem takeCommand_clearOnExit (c : RawCommand) (s : State) : (takeCommand c s).clearOnExit = s.clearOnExit := rfl
@[simp] theorem takeCommand_hsClk (c : RawCommand) (s : State) : (takeCommand c s).hsClk = s.hsClk := rfl
@[simp] theorem takeCommand_hsDat (c : RawCommand) (s : State) : (takeCommand c s).hsDat = s.hsDat := rfl
@[simp] theorem takeCommand_lvlClk (c : RawCommand) (s : State) : (takeCommand c s).lvlClk = s.lvlClk := rfl
@[simp] theorem takeCommand_lvlDat (c : RawCommand) (s : State) : (takeCommand c s).lvlDat = s.lvlDat := rfl
@[simp] theorem takeCommand_phase (c : RawCommand) (s : State) : (takeCommand c s).phase = s.phase := rfl
@[simp] theorem takeCommand_cnt (c : RawCommand) (s : State) : (takeCommand c s).cnt = s.cnt := rfl
@[simp] theorem takeCommand_p (c : RawCommand) (s : State) : (takeCommand c s).p = s.p := rfl
@[simp] theorem takeCommand_k (c : RawCommand) (s : State) : (takeCommand c s).k = s.k := rfl
@[simp] theorem takeCommand_j (c : RawCommand) (s : State) : (takeCommand c s).j = s.j := rfl
@[simp] theorem takeCommand_sr (c : RawCommand) (s : State) : (takeCommand c s).sr = s.sr := rfl
@[simp] theorem takeCommand_w (c : RawCommand) (s : State) : (takeCommand c s).w = s.w := rfl
@[simp] theorem takeCommand_rerr (c : RawCommand) (s : State) : (takeCommand c s).rerr = s.rerr := rfl
@[simp] theorem takeCommand_latch (c : RawCommand) (s : State) : (takeCommand c s).latch = s.latch := rfl
@[simp] theorem takeCommand_queue (c : RawCommand) (s : State) : (takeCommand c s).queue = s.queue := rfl
@[simp] theorem takeCommand_cur (c : RawCommand) (s : State) : (takeCommand c s).cur = s.cur := rfl
@[simp] theorem takeCommand_nextTicket (c : RawCommand) (s : State) : (takeCommand c s).nextTicket = s.nextTicket := rfl
@[simp] theorem takeCommand_xs (c : RawCommand) (s : State) : (takeCommand c s).xs = s.xs := rfl
@[simp] theorem takeCommand_refused (c : RawCommand) (s : State) : (takeCommand c s).refused = s.refused := rfl
@[simp] theorem takeCommand_trace (c : RawCommand) (s : State) : (takeCommand c s).trace = s.trace := rfl
@[simp] theorem takeCommand_port (c : RawCommand) (s : State) : (takeCommand c s).port = s.port.erase c := rfl
@[simp] theorem takeCommand_answers (c : RawCommand) (s : State) : (takeCommand c s).answers = s.answers := rfl
@[simp] theorem takeCommand_draws (c : RawCommand) (s : State) : (takeCommand c s).draws = s.draws := rfl
@[simp] theorem takeCommand_turn (c : RawCommand) (s : State) : (takeCommand c s).turn = s.turn + 1 := rfl

/-! ### setHs -/

@[simp] theorem setHs_buf (l : Line) (h : HandleState) (s : State) : (setHs l h s).buf = s.buf := by cases l <;> rfl
@[simp] theorem setHs_clearOnExit (l : Line) (h : HandleState) (s : State) : (setHs l h s).clearOnExit = s.clearOnExit := by cases l <;> rfl
@[simp] theorem setHs_lvlClk (l : Line) (h : HandleState) (s : State) : (setHs l h s).lvlClk = s.lvlClk := by cases l <;> rfl
@[simp] theorem setHs_lvlDat (l : Line) (h : HandleState) (s : State) : (setHs l h s).lvlDat = s.lvlDat := by cases l <;> rfl
@[simp] theorem setHs_phase (l : Line) (h : HandleState) (s : State) : (setHs l h s).phase = s.phase := by cases l <;> rfl
@[simp] theorem setHs_cnt (l : Line) (h : HandleState) (s : State) : (setHs l h s).cnt = s.cnt := by cases l <;> rfl
@[simp] theorem setHs_p (l : Line) (h : HandleState) (s : State) : (setHs l h s).p = s.p := by cases l <;> rfl
@[simp] theorem setHs_k (l : Line) (h : HandleState) (s : State) : (setHs l h s).k = s.k := by cases l <;> rfl
@[simp] theorem setHs_j (l : Line) (h : HandleState) (s : State) : (setHs l h s).j = s.j := by cases l <;> rfl
@[simp] theorem setHs_sr (l : Line) (h : HandleState) (s : State) : (setHs l h s).sr = s.sr := by cases l <;> rfl
@[simp] theorem setHs_w (l : Line) (h : HandleState) (s : State) : (setHs l h s).w = s.w := by cases l <;> rfl
@[simp] theorem setHs_rerr (l : Line) (h : HandleState) (s : State) : (setHs l h s).rerr = s.rerr := by cases l <;> rfl
@[simp] theorem setHs_latch (l : Line) (h : HandleState) (s : State) : (setHs l h s).latch = s.latch := by cases l <;> rfl
@[simp] theorem setHs_queue (l : Line) (h : HandleState) (s : State) : (setHs l h s).queue = s.queue := by cases l <;> rfl
@[simp] theorem setHs_cur (l : Line) (h : HandleState) (s : State) : (setHs l h s).cur = s.cur := by cases l <;> rfl
@[simp] theorem setHs_nextTicket (l : Line) (h : HandleState) (s : State) : (setHs l h s).nextTicket = s.nextTicket := by cases l <;> rfl
@[simp] theorem setHs_xs (l : Line) (h : HandleState) (s : State) : (setHs l h s).xs = s.xs := by cases l <;> rfl
@[simp] theorem setHs_refused (l : Line) (h : HandleState) (s : State) : (setHs l h s).refused = s.refused := by cases l <;> rfl
@[simp] theorem setHs_trace (l : Line) (h : HandleState) (s : State) : (setHs l h s).trace = s.trace := by cases l <;> rfl
@[simp] theorem setHs_port (l : Line) (h : HandleState) (s : State) : (setHs l h s).port = s.port := by cases l <;> rfl
@[simp] theorem setHs_answers (l : Line) (h : HandleState) (s : State) : (setHs l h s).answers = s.answers := by cases l <;> rfl
@[simp] theorem setHs_draws (l : Line) (h : HandleState) (s : State) : (setHs l h s).draws = s.draws := by cases l <;> rfl
@[simp] theorem setHs_turn (l : Line) (h : HandleState) (s : State) : (setHs l h s).turn = s.turn := by cases l <;> rfl
@[simp] theorem setHs_clk_hsClk (h : HandleState) (s : State) : (setHs .clk h s).hsClk = h := rfl
@[simp] theorem setHs_clk_hsDat (h : HandleState) (s : State) : (setHs .clk h s).hsDat = s.hsDat := rfl
@[simp] theorem setHs_dat_hsDat (h : HandleState) (s : State) : (setHs .dat h s).hsDat = h := rfl
@[simp] theorem setHs_dat_hsClk (h : HandleState) (s : State) : (setHs .dat h s).hsClk = s.hsClk := rfl

/-! ### setLvl -/

@[simp] theorem setLvl_buf (l : Line) (v : Level) (s : State) : (setLvl l v s).buf = s.buf := by cases l <;> rfl
@[simp] theorem setLvl_clearOnExit (l : Line) (v : Level) (s : State) : (setLvl l v s).clearOnExit = s.clearOnExit := by cases l <;> rfl
@[simp] theorem setLvl_hsClk (l : Line) (v : Level) (s : State) : (setLvl l v s).hsClk = s.hsClk := by cases l <;> rfl
@[simp] theorem setLvl_hsDat (l : Line) (v : Level) (s : State) : (setLvl l v s).hsDat = s.hsDat := by cases l <;> rfl
@[simp] theorem setLvl_phase (l : Line) (v : Level) (s : State) : (setLvl l v s).phase = s.phase := by cases l <;> rfl
@[simp] theorem setLvl_cnt (l : Line) (v : Level) (s : State) : (setLvl l v s).cnt = s.cnt := by cases l <;> rfl
@[simp] theorem setLvl_p (l : Line) (v : Level) (s : State) : (setLvl l v s).p = s.p := by cases l <;> rfl
@[simp] theorem setLvl_k (l : Line) (v : Level) (s : State) : (setLvl l v s).k = s.k := by cases l <;> rfl
@[simp] theorem setLvl_j (l : Line) (v : Level) (s : State) : (setLvl l v s).j = s.j := by cases l <;> rfl
@[simp] theorem setLvl_sr (l : Line) (v : Level) (s : State) : (setLvl l v s).sr = s.sr := by cases l <;> rfl
@[simp] theorem setLvl_w (l : Line) (v : Level) (s : State) : (setLvl l v s).w = s.w := by cases l <;> rfl
@[simp] theorem setLvl_rerr (l : Line) (v : Level) (s : State) : (setLvl l v s).rerr = s.rerr := by cases l <;> rfl
@[simp] theorem setLvl_latch (l : Line) (v : Level) (s : State) : (setLvl l v s).latch = s.latch := by cases l <;> rfl
@[simp] theorem setLvl_queue (l : Line) (v : Level) (s : State) : (setLvl l v s).queue = s.queue := by cases l <;> rfl
@[simp] theorem setLvl_cur (l : Line) (v : Level) (s : State) : (setLvl l v s).cur = s.cur := by cases l <;> rfl
@[simp] theorem setLvl_nextTicket (l : Line) (v : Level) (s : State) : (setLvl l v s).nextTicket = s.nextTicket := by cases l <;> rfl
@[simp] theorem setLvl_xs (l : Line) (v : Level) (s : State) : (setLvl l v s).xs = s.xs := by cases l <;> rfl
@[simp] theorem setLvl_refused (l : Line) (v : Level) (s : State) : (setLvl l v s).refused = s.refused := by cases l <;> rfl
@[simp] theorem setLvl_trace (l : Line) (v : Level) (s : State) : (setLvl l v s).trace = s.trace := by cases l <;> rfl
@[simp] theorem setLvl_port (l : Line) (v : Level) (s : State) : (setLvl l v s).port = s.port := by cases l <;> rfl
@[simp] theorem setLvl_answers (l : Line) (v : Level) (s : State) : (setLvl l v s).answers = s.answers := by cases l <;> rfl
@[simp] theorem setLvl_draws (l : Line) (v : Level) (s : State) : (setLvl l v s).draws = s.draws := by cases l <;> rfl
@[simp] theorem setLvl_turn (l : Line) (v : Level) (s : State) : (setLvl l v s).turn = s.turn := by cases l <;> rfl
@[simp] theorem setLvl_clk_lvlClk (v : Level) (s : State) : (setLvl .clk v s).lvlClk = v := rfl
@[simp] theorem setLvl_clk_lvlDat (v : Level) (s : State) : (setLvl .clk v s).lvlDat = s.lvlDat := rfl
@[simp] theorem setLvl_dat_lvlDat (v : Level) (s : State) : (setLvl .dat v s).lvlDat = v := rfl
@[simp] theorem setLvl_dat_lvlClk (v : Level) (s : State) : (setLvl .dat v s).lvlClk = s.lvlClk := rfl

/-! ### hs and lvl by line -/

@[simp] theorem hs_clk (s : State) : s.hs .clk = s.hsClk := rfl
@[simp] theorem hs_dat (s : State) : s.hs .dat = s.hsDat := rfl
@[simp] theorem lvl_clk (s : State) : s.lvl .clk = s.lvlClk := rfl
@[simp] theorem lvl_dat (s : State) : s.lvl .dat = s.lvlDat := rfl

/-! ### GPIO actions: what they leave alone, and the draw they use up -/

@[simp] theorem gpioAcquire_buf (l : Line) (s : State) : (gpioAcquire l s).buf = s.buf := by rfl
@[simp] theorem gpioAcquire_clearOnExit (l : Line) (s : State) : (gpioAcquire l s).clearOnExit = s.clearOnExit := by rfl
@[simp] theorem gpioAcquire_hsClk (l : Line) (s : State) : (gpioAcquire l s).hsClk = s.hsClk := by rfl
@[simp] theorem gpioAcquire_hsDat (l : Line) (s : State) : (gpioAcquire l s).hsDat = s.hsDat := by rfl
@[simp] theorem gpioAcquire_lvlClk (l : Line) (s : State) : (gpioAcquire l s).lvlClk = s.lvlClk := by rfl
@[simp] theorem gpioAcquire_lvlDat (l : Line) (s : State) : (gpioAcquire l s).lvlDat = s.lvlDat := by rfl
@[simp] theorem gpioAcquire_phase (l : Line) (s : State) : (gpioAcquire l s).phase = s.phase := by rfl
@[simp] theorem gpioAcquire_cnt (l : Line) (s : State) : (gpioAcquire l s).cnt = s.cnt := by rfl
@[simp] theorem gpioAcquire_p (l : Line) (s : State) : (gpioAcquire l s).p = s.p := by rfl
@[simp] theorem gpioAcquire_k (l : Line) (s : State) : (gpioAcquire l s).k = s.k := by rfl
@[simp] theorem gpioAcquire_j (l : Line) (s : State) : (gpioAcquire l s).j = s.j := by rfl
@[simp] theorem gpioAcquire_sr (l : Line) (s : State) : (gpioAcquire l s).sr = s.sr := by rfl
@[simp] theorem gpioAcquire_w (l : Line) (s : State) : (gpioAcquire l s).w = s.w := by rfl
@[simp] theorem gpioAcquire_rerr (l : Line) (s : State) : (gpioAcquire l s).rerr = s.rerr := by rfl
@[simp] theorem gpioAcquire_latch (l : Line) (s : State) : (gpioAcquire l s).latch = s.latch := by rfl
@[simp] theorem gpioAcquire_queue (l : Line) (s : State) : (gpioAcquire l s).queue = s.queue := by rfl
@[simp] theorem gpioAcquire_cur (l : Line) (s : State) : (gpioAcquire l s).cur = s.cur := by rfl
@[simp] theorem gpioAcquire_nextTicket (l : Line) (s : State) : (gpioAcquire l s).nextTicket = s.nextTicket := by rfl
@[simp] theorem gpioAcquire_xs (l : Line) (s : State) : (gpioAcquire l s).xs = s.xs := by rfl
@[simp] theorem gpioAcquire_refused (l : Line) (s : State) : (gpioAcquire l s).refused = s.refused := by rfl
@[simp] theorem gpioAcquire_port (l : Line) (s : State) : (gpioAcquire l s).port = s.port := by rfl
@[simp] theorem gpioAcquire_turn (l : Line) (s : State) : (gpioAcquire l s).turn = s.turn := by rfl
@[simp] theorem gpioAcquire_trace (l : Line) (s : State) : (gpioAcquire l s).trace = s.trace ++ [.acq l (gpioAnswer s)] := rfl
@[simp] theorem gpioAcquire_answers (l : Line) (s : State) : (gpioAcquire l s).answers = s.answers.tail := rfl
@[simp] theorem gpioAcquire_draws (l : Line) (s : State) : (gpioAcquire l s).draws = s.draws + 1 := rfl

@[simp] theorem gpioRelease_buf (l : Line) (s : State) : (gpioRelease l s).buf = s.buf := by rfl
@[simp] theorem gpioRelease_clearOnExit (l : Line) (s : State) : (gpioRelease l s).clearOnExit = s.clearOnExit := by rfl
@[simp] theorem gpioRelease_hsClk (l : Line) (s : State) : (gpioRelease l s).hsClk = s.hsClk := by rfl
@[simp] theorem gpioRelease_hsDat (l : Line) (s : State) : (gpioRelease l s).hsDat = s.hsDat := by rfl
@[simp] theorem gpioRelease_lvlClk (l : Line) (s : State) : (gpioRelease l s).lvlClk = s.lvlClk := by rfl
@[simp] theorem gpioRelease_lvlDat (l : Line) (s : State) : (gpioRelease l s).lvlDat = s.lvlDat := by rfl
@[simp] theorem gpioRelease_phase (l : Line) (s : State) : (gpioRelease l s).phase = s.phase := by rfl
@[simp] theorem gpioRelease_cnt (l : Line) (s : State) : (gpioRelease l s).cnt = s.cnt := by rfl
@[simp] theorem gpioRelease_p (l : Line) (s : State) : (gpioRelease l s).p = s.p := by rfl
@[simp] theorem gpioRelease_k (l : Line) (s : State) : (gpioRelease l s).k = s.k := by rfl
@[simp] theorem gpioRelease_j (l : Line) (s : State) : (gpioRelease l s).j = s.j := by rfl
@[simp] theorem gpioRelease_sr (l : Line) (s : State) : (gpioRelease l s).sr = s.sr := by rfl
@[simp] theorem gpioRelease_w (l : Line) (s : State) : (gpioRelease l s).w = s.w := by rfl
@[simp] theorem gpioRelease_rerr (l : Line) (s : State) : (gpioRelease l s).rerr = s.rerr := by rfl
@[simp] theorem gpioRelease_latch (l : Line) (s : State) : (gpioRelease l s).latch = s.latch := by rfl
@[simp] theorem gpioRelease_queue (l : Line) (s : State) : (gpioRelease l s).queue = s.queue := by rfl
@[simp] theorem gpioRelease_cur (l : Line) (s : State) : (gpioRelease l s).cur = s.cur := by rfl
@[simp] theorem gpioRelease_nextTicket (l : Line) (s : State) : (gpioRelease l s).nextTicket = s.nextTicket := by rfl
@[simp] theorem gpioRelease_xs (l : Line) (s : State) : (gpioRelease l s).xs = s.xs := by rfl
@[simp] theorem gpioRelease_refused (l : Line) (s : State) : (gpioRelease l s).refused = s.refused := by rfl
@[simp] theorem gpioRelease_port (l : Line) (s : State) : (gpioRelease l s).port = s.port := by rfl
@[simp] theorem gpioRelease_turn (l : Line) (s : State) : (gpioRelease l s).turn = s.turn := by rfl
@[simp] theorem gpioRelease_trace (l : Line) (s : State) : (gpioRelease l s).trace = s.trace ++ [.rel l (gpioAnswer s)] := rfl
@[simp] theorem gpioRelease_answers (l : Line) (s : State) : (gpioRelease l s).answers = s.answers.tail := rfl
@[simp] theorem gpioRelease_draws (l : Line) (s : State) : (gpioRelease l s).draws = s.draws + 1 := rfl

@[simp] theorem gpioWrite_buf (l : Line) (v : Bool) (s : State) : (gpioWrite l v s).buf = s.buf := by simp [gpioWrite]
@[simp] theorem gpioWrite_clearOnExit (l : Line) (v : Bool) (s : State) : (gpioWrite l v s).clearOnExit = s.clearOnExit := by simp [gpioWrite]
@[simp] theorem gpioWrite_hsClk (l : Line) (v : Bool) (s : State) : (gpioWrite l v s).hsClk = s.hsClk := by simp [gpioWrite]
@[simp] theorem gpioWrite_hsDat (l : Line) (v : Bool) (s : State) : (gpioWrite l v s).hsDat = s.hsDat := by simp [gpioWrite]
@[simp] theorem gpioWrite_phase (l : Line) (v : Bool) (s : State) : (gpioWrite l v s).phase = s.phase := by simp [gpioWrite]
@[simp] theorem gpioWrite_cnt (l : Line) (v : Bool) (s : State) : (gpioWrite l v s).cnt = s.cnt := by simp [gpioWrite]
@[simp] theorem gpioWrite_p (l : Line) (v : Bool) (s : State) : (gpioWrite l v s).p = s.p := by simp [gpioWrite]
@[simp] theorem gpioWrite_k (l : Line) (v : Bool) (s : State) : (gpioWrite l v s).k = s.k := by simp [gpioWrite]
@[simp] theorem gpioWrite_j (l : Line) (v : Bool) (s : State) : (gpioWrite l v s).j = s.j := by simp [gpioWrite]
@[simp] theorem gpioWrite_sr (l : Line) (v : Bool) (s : State) : (gpioWrite l v s).sr = s.sr := by simp [gpioWrite]
@[simp] theorem gpioWrite_w (l : Line) (v : Bool) (s : State) : (gpioWrite l v s).w = s.w := by simp [gpioWrite]
@[simp] theorem gpioWrite_rerr (l : Line) (v : Bool) (s : State) : (gpioWrite l v s).rerr = s.rerr := by simp [gpioWrite]
@[simp] theorem gpioWrite_latch (l : Line) (v : Bool) (s : State) : (gpioWrite l v s).latch = s.latch := by simp [gpioWrite]
@[simp] theorem gpioWrite_queue (l : Line) (v : Bool) (s : State) : (gpioWrite l v s).queue = s.queue := by simp [gpioWrite]
@[simp] theorem gpioWrite_cur (l : Line) (v : Bool) (s : State) : (gpioWrite l v s).cur = s.cur := by simp [gpioWrite]
@[simp] theorem gpioWrite_nextTicket (l : Line) (v : Bool) (s : State) : (gpioWrite l v s).nextTicket = s.nextTicket := by simp [gpioWrite]
@[simp] theorem gpioWrite_xs (l : Line) (v : Bool) (s : State) : (gpioWrite l v s).xs = s.xs := by simp [gpioWrite]
@[simp] theorem gpioWrite_refused (l : Line) (v : Bool) (s : State) : (gpioWrite l v s).refused = s.refused := by simp [gpioWrite]
@[simp] theorem gpioWrite_port (l : Line) (v : Bool) (s : State) : (gpioWrite l v s).port = s.port := by simp [gpioWrite]
@[simp] theorem gpioWrite_turn (l : Line) (v : Bool) (s : State) : (gpioWrite l v s).turn = s.turn := by simp [gpioWrite]
@[simp] theorem gpioWrite_trace (l : Line) (v : Bool) (s : State) : (gpioWrite l v s).trace = s.trace ++ [.wr l v (gpioAnswer s)] := by simp [gpioWrite]
@[simp] theorem gpioWrite_answers (l : Line) (v : Bool) (s : State) : (gpioWrite l v s).answers = s.answers.tail := by simp [gpioWrite]
@[simp] theorem gpioWrite_draws (l : Line) (v : Bool) (s : State) : (gpioWrite l v s).draws = s.draws + 1 := by simp [gpioWrite]

@[simp] theorem acquireLine_buf (l : Line) (s : State) : (acquireLine l s).buf = s.buf := by unfold acquireLine; split <;> simp
@[simp] theorem acquireLine_clearOnExit (l : Line) (s : State) : (acquireLine l s).clearOnExit = s.clearOnExit := by unfold acquireLine; split <;> simp
@[simp] theorem acquireLine_phase (l : Line) (s : State) : (acquireLine l s).phase = s.phase := by unfold acquireLine; split <;> simp
@[simp] theorem acquireLine_cnt (l : Line) (s : State) : (acquireLine l s).cnt = s.cnt := by unfold acquireLine; split <;> simp
@[simp] theorem acquireLine_p (l : Line) (s : State) : (acquireLine l s).p = s.p := by unfold acquireLine; split <;> simp
@[simp] theorem acquireLine_k (l : Line) (s : State) : (acquireLine l s).k = s.k := by unfold acquireLine; split <;> simp
@[simp] theorem acquireLine_j (l : Line) (s : State) : (acquireLine l s).j = s.j := by unfold acquireLine; split <;> simp
@[simp] theorem acquireLine_sr (l : Line) (s : State) : (acquireLine l s).sr = s.sr := by unfold acquireLine; split <;> simp
@[simp] theorem acquireLine_w (l : Line) (s : State) : (acquireLine l s).w = s.w := by unfold acquireLine; split <;> simp
@[simp] theorem acquireLine_rerr (l : Line) (s : State) : (acquireLine l s).rerr = s.rerr := by unfold acquireLine; split <;> simp
@[simp] theorem acquireLine_latch (l : Line) (s : State) : (acquireLine l s).latch = s.latch := by unfold acquireLine; split <;> simp
@[simp] theorem acquireLine_queue (l : Line) (s : State) : (acquireLine l s).queue = s.queue := by unfold acquireLine; split <;> simp
@[simp] theorem acquireLine_cur (l : Line) (s : State) : (acquireLine l s).cur = s.cur := by unfold acquireLine; split <;> simp
@[simp] theorem acquireLine_nextTicket (l : Line) (s : State) : (acquireLine l s).nextTicket = s.nextTicket := by unfold acquireLine; split <;> simp
@[simp] theorem acquireLine_xs (l : Line) (s : State) : (acquireLine l s).xs = s.xs := by unfold acquireLine; split <;> simp
@[simp] theorem acquireLine_refused (l : Line) (s : State) : (acquireLine l s).refused = s.refused := by unfold acquireLine; split <;> simp
@[simp] theorem acquireLine_port (l : Line) (s : State) : (acquireLine l s).port = s.port := by unfold acquireLine; split <;> simp
@[simp] theorem acquireLine_turn (l : Line) (s : State) : (acquireLine l s).turn = s.turn := by unfold acquireLine; split <;> simp
@[simp] theorem acquireLine_trace (l : Line) (s : State) : (acquireLine l s).trace = s.trace ++ [.acq l (gpioAnswer s)] := by unfold acquireLine; split <;> simp
@[simp] theorem acquireLine_answers (l : Line) (s : State) : (acquireLine l s).answers = s.answers.tail := by unfold acquireLine; split <;> simp
@[simp] theorem acquireLine_draws (l : Line) (s : State) : (acquireLine l s).draws = s.draws + 1 := by unfold acquireLine; split <;> simp

@[simp] theorem releaseLine_buf (l : Line) (s : State) : (releaseLine l s).buf = s.buf := by simp [releaseLine]
@[simp] theorem releaseLine_clearOnExit (l : Line) (s : State) : (releaseLine l s).clearOnExit = s.clearOnExit := by simp [releaseLine]
@[simp] theorem releaseLine_phase (l : Line) (s : State) : (releaseLine l s).phase = s.phase := by simp [releaseLine]
@[simp] theorem releaseLine_cnt (l : Line) (s : State) : (releaseLine l s).cnt = s.cnt := by simp [releaseLine]
@[simp] theorem releaseLine_p (l : Line) (s : State) : (releaseLine l s).p = s.p := by simp [releaseLine]
@[simp] theorem releaseLine_k (l : Line) (s : State) : (releaseLine l s).k = s.k := by simp [releaseLine]
@[simp] theorem releaseLine_j (l : Line) (s : State) : (releaseLine l s).j = s.j := by simp [releaseLine]
@[simp] theorem releaseLine_sr (l : Line) (s : State) : (releaseLine l s).sr = s.sr := by simp [releaseLine]
@[simp] theorem releaseLine_w (l : Line) (s : State) : (releaseLine l s).w = s.w := by simp [releaseLine]
@[simp] theorem releaseLine_rerr (l : Line) (s : State) : (releaseLine l s).rerr = s.rerr := by simp [releaseLine]
@[simp] theorem releaseLine_latch (l : Line) (s : State) : (releaseLine l s).latch = s.latch := by simp [releaseLine]
@[simp] theorem releaseLine_queue (l : Line) (s : State) : (releaseLine l s).queue = s.queue := by simp [releaseLine]
@[simp] theorem releaseLine_cur (l : Line) (s : State) : (releaseLine l s).cur = s.cur := by simp [releaseLine]
@[simp] theorem releaseLine_nextTicket (l : Line) (s : State) : (releaseLine l s).nextTicket = s.nextTicket := by simp [releaseLine]
@[simp] theorem releaseLine_xs (l : Line) (s : State) : (releaseLine l s).xs = s.xs := by simp [releaseLine]
@[simp] theorem releaseLine_refused (l : Line) (s : State) : (releaseLine l s).refused = s.refused := by simp [releaseLine]
@[simp] theorem releaseLine_port (l : Line) (s : State) : (releaseLine l s).port = s.port := by simp [releaseLine]
@[simp] theorem releaseLine_turn (l : Line) (s : State) : (releaseLine l s).turn = s.turn := by simp [releaseLine]
@[simp] theorem releaseLine_trace (l : Line) (s : State) : (releaseLine l s).trace = s.trace ++ [.rel l (gpioAnswer s)] := by simp [releaseLine]
@[simp] theorem releaseLine_answers (l : Line) (s : State) : (releaseLine l s).answers = s.answers.tail := by simp [releaseLine]
@[simp] theorem releaseLine_draws (l : Line) (s : State) : (releaseLine l s).draws = s.draws + 1 := by simp [releaseLine]

@[simp] theorem releasePhase_buf (l : Line) (s : State) : (releasePhase l s).buf = s.buf := by unfold releasePhase; split <;> simp
@[simp] theorem releasePhase_clearOnExit (l : Line) (s : State) : (releasePhase l s).clearOnExit = s.clearOnExit := by unfold releasePhase; split <;> simp
@[simp] theorem releasePhase_phase (l : Line) (s : State) : (releasePhase l s).phase = s.phase := by unfold releasePhase; split <;> simp
@[simp] theorem releasePhase_cnt (l : Line) (s : State) : (releasePhase l s).cnt = s.cnt := by unfold releasePhase; split <;> simp
@[simp] theorem releasePhase_p (l : Line) (s : State) : (releasePhase l s).p = s.p := by unfold releasePhase; split <;> simp
@[simp] theorem releasePhase_k (l : Line) (s : State) : (releasePhase l s).k = s.k := by unfold releasePhase; split <;> simp
@[simp] theorem releasePhase_j (l : Line) (s : State) : (releasePhase l s).j = s.j := by unfold releasePhase; split <;> simp
@[simp] theorem releasePhase_sr (l : Line) (s : State) : (releasePhase l s).sr = s.sr := by unfold releasePhase; split <;> simp
@[simp] theorem releasePhase_w (l : Line) (s : State) : (releasePhase l s).w = s.w := by unfold releasePhase; split <;> simp
@[simp] theorem releasePhase_latch (l : Line) (s : State) : (releasePhase l s).latch = s.latch := by unfold releasePhase; split <;> simp
@[simp] theorem releasePhase_queue (l : Line) (s : State) : (releasePhase l s).queue = s.queue := by unfold releasePhase; split <;> simp
@[simp] theorem releasePhase_cur (l : Line) (s : State) : (releasePhase l s).cur = s.cur := by unfold releasePhase; split <;> simp
@[simp] theorem releasePhase_nextTicket (l : Line) (s : State) : (releasePhase l s).nextTicket = s.nextTicket := by unfold releasePhase; split <;> simp
@[simp] theorem releasePhase_xs (l : Line) (s : State) : (releasePhase l s).xs = s.xs := by unfold releasePhase; split <;> simp
@[simp] theorem releasePhase_refused (l : Line) (s : State) : (releasePhase l s).refused = s.refused := by unfold releasePhase; split <;> simp
@[simp] theorem releasePhase_port (l : Line) (s : State) : (releasePhase l s).port = s.port := by unfold releasePhase; split <;> simp
@[simp] theorem releasePhase_turn (l : Line) (s : State) : (releasePhase l s).turn = s.turn := by unfold releasePhase; split <;> simp

end Sys2Proof.Machine
end

