-- ==== Sys2Proof/Laws/Ops.lean ====
section
/-! SUPPORT. One lemma per shared operation that says everything it can do, for the proofs to cite instead of unfolding it. -/

namespace Sys2Proof.Machine

/-- R44: reading a record of a mapped buffer. -/
theorem mapPixels_get (f : Pixel → Pixel) (v : Pixels) (i : Fin Config.pixels) : (mapPixels f v)[i] = f v[i] := by
  simp [mapPixels]

@[simp] theorem mapPixels_getElem (f : Pixel → Pixel) (v : Pixels) (n : Nat) (h : n < Config.pixels) :
    (mapPixels f v)[n] = f v[n] := by
  simp [mapPixels]

/-- R44: the record written is read back, every other one is as before. -/
theorem bufWrite_get (i m : Fin Config.pixels) (q : Pixel) (s : State) :
    (bufWrite i q s).buf[m] = if m = i then q else s.buf[m] := by
  by_cases h : m = i
  · subst h; simp [bufWrite]
  · have : (i : Nat) ≠ m := fun e => h (Fin.ext e.symm)
    simp [bufWrite, h, this]

/-- A free choice falls on one of the candidates. -/
theorem pickFrom_mem {α : Type} (a : α) (rest : List α) (n : Nat) : pickFrom a rest n ∈ a :: rest := by
  match rest with
  | [] => simp [pickFrom]
  | b :: more =>
    have h : n % (more.length + 2) < (a :: b :: more).length := by
      simpa using Nat.mod_lt n (Nat.succ_pos (more.length + 1))
    rw [pickFrom, List.getD_eq_getElem _ _ h]
    exact List.getElem_mem h

/-- A single candidate is the choice. -/
@[simp] theorem pickFrom_nil {α : Type} (a : α) (n : Nat) : pickFrom a [] n = a := rfl

/-- R80: the reported failure is one of the failing checks' own. -/
theorem reportedFailure_mem (f : Failure) (fs : List Failure) (n : Nat) : reportedFailure f fs n ∈ f :: fs := by
  unfold reportedFailure
  dsimp only
  generalize (if (f :: fs).all (·.kind == .type) then ErrKind.type
    else if (f :: fs).all (·.kind == .range) then ErrKind.range
    else if Config.mixedErrorIsType n then ErrKind.type else ErrKind.range) = kind
  split
  · exact List.mem_cons_self
  · rename_i a rest h
    have := pickFrom_mem a rest (Config.pickOperand n)
    rw [← h] at this
    exact (List.mem_filter.mp this).1

/-- R147: a meaning answers only while nothing is refused. -/
theorem unlessRefused_next {s t : State} {k : Result} (h : unlessRefused s k = .next t) :
    s.refused = none ∧ k = .next t := by
  unfold unlessRefused at h
  split at h
  · cases h
  · exact ⟨‹_›, h⟩

theorem unlessRefused_of_none {s : State} {k : Result} (hr : s.refused = none) : unlessRefused s k = k := by
  unfold unlessRefused
  rw [hr]

/-- R147: a refusal of several reasons records one of them and writes nothing else. -/
theorem refuseWith_eq (r : RefReason) (rs : List RefReason) (s : State) :
    ∃ q ∈ r :: rs, refuseWith r rs s = { s with refused := some q } :=
  ⟨_, pickFrom_mem r rs _, rfl⟩

/-- R146, R147: what a live-only meaning can answer. -/
theorem whenLive_next {s t : State} {k : Result} (h : whenLive s k = .next t) :
    s.refused = none ∧ s.xs ≠ .done ∧ k = .next t := by
  unfold whenLive at h
  obtain ⟨hr, h⟩ := unlessRefused_next h
  split at h <;> simp_all

theorem whenLive_of_live {s : State} {k : Result} (hr : s.refused = none) (hx : s.xs ≠ .done) :
    whenLive s k = k := by
  unfold whenLive unlessRefused
  rw [hr]
  cases h : s.xs <;> simp_all

/-- R146: what a command can answer: its effect while `xs = NONE`, a refusal while the exit sequence runs. -/
theorem accept_next {s t : State} {k : Result} (h : accept s k = .next t) :
    s.refused = none ∧ (s.xs = .notStarted ∧ k = .next t ∨
      s.xs = .running ∧ t = refuse .afterExit s) := by
  obtain ⟨hr, hx, hk⟩ := whenLive_next h
  refine ⟨hr, ?_⟩
  cases hs : s.xs <;> simp_all

theorem accept_of_accepting {s : State} {k : Result} (hr : s.refused = none)
    (hx : s.xs = .notStarted) : accept s k = k := by
  simp [accept, whenLive, unlessRefused, hr, hx]

theorem accept_of_running {s : State} {k : Result} (hr : s.refused = none)
    (hx : s.xs = .running) : accept s k = .next (refuse .afterExit s) := by
  simp [accept, whenLive, unlessRefused, hr, hx]

/-- R127: what EXIT queues and writes, `clearOnExit` holding or not. -/
theorem exitSequence_eq (s : State) : exitRelease (exitFlush s) =
    if s.clearOnExit = true then { s with
      buf := mapPixels blackened s.buf, nextTicket := s.nextTicket + 2,
      queue := s.queue ++ [.flush s.nextTicket .exit, .release (s.nextTicket + 1) .exit, .exitMark] }
    else { s with
      nextTicket := s.nextTicket + 1, queue := s.queue ++ [.release s.nextTicket .exit, .exitMark] } := by
  unfold exitFlush
  split <;> simp [exitRelease, enqueue, takeTicket, clearColours]

/-- A flush phase has a step only while `cur` is a flush job. -/
theorem inFlush_next {s t : State} {k : Nat → Result} (h : inFlush s k = .next t) :
    ∃ n o, s.cur = some (.flush n o) ∧ k n = .next t := by
  unfold inFlush at h
  split at h <;> simp_all

theorem inFlush_of_flush {s : State} {k : Nat → Result} {n : Nat} {o : Origin} (h : s.cur = some (.flush n o)) :
    inFlush s k = k n := by
  simp [inFlush, h]

/-- A release phase has a step only while `cur` is a release job. -/
theorem inRelease_next {s t : State} {k : Nat → Result} (h : inRelease s k = .next t) :
    ∃ n o, s.cur = some (.release n o) ∧ k n = .next t := by
  unfold inRelease at h
  split at h <;> simp_all

theorem inRelease_of_release {s : State} {k : Nat → Result} {n : Nat} {o : Origin}
    (h : s.cur = some (.release n o)) : inRelease s k = k n := by
  simp [inRelease, h]

/-- R112, R143: what a write phase can answer. -/
theorem writePhase_next {n : Nat} {l : Line} {v : Bool} {next : State → State} {s t : State}
    (h : writePhase n l v next s = .next t) :
    s.hs l = .acq ∧ (gpioAnswer s = .ok ∧ t = next (gpioWrite l v s) ∨
      gpioAnswer s = .fail ∧ t = endJob n (.err (.writeFailed l)) (gpioWrite l v s)) := by
  unfold writePhase at h
  split at h
  · rename_i ha
    refine ⟨ha, ?_⟩
    cases hg : gpioAnswer s <;> simp_all
  · cases h
  · cases h

theorem writePhase_of_acq {n : Nat} {l : Line} {v : Bool} {next : State → State} {s : State} (h : s.hs l = .acq) :
    writePhase n l v next s = .next (match gpioAnswer s with
      | .ok => next (gpioWrite l v s)
      | .fail => endJob n (.err (.writeFailed l)) (gpioWrite l v s)) := by
  cases hg : gpioAnswer s <;> simp [writePhase, h, hg]

/-- The step of an agent, by cases: refused, terminated, no agent ready, a command, or ENC. -/
theorem step_next {s t : State} (h : step s = .next t) :
    s.refused = none ∧
      (t = s ∨ (∃ c, chooseAgent s = some (.issuer c) ∧ issueStep c s = .next t) ∨
        (s.xs ≠ .done ∧ chooseAgent s = some .enc ∧ encStep (advanceTurn s) = .next t)) := by
  unfold step at h
  split at h
  · cases h
  · rename_i hr
    refine ⟨hr, ?_⟩
    split at h
    · left; cases h; rfl
    · rename_i hx
      split at h
      · left; cases h; rfl
      · rename_i c hc
        exact .inr (.inl ⟨c, hc, h⟩)
      · rename_i hc
        refine .inr (.inr ⟨?_, hc, h⟩)
        simpa [terminated] using hx

end Sys2Proof.Machine
end

