-- ==== Sys2Proof/Laws/Wire.lean ====
section
/-! SUPPORT. The command word: R68's assembly is R67's concatenation of fields, and its fields and bytes read back. -/

namespace Sys2Proof.Machine

/-- R67, R68: the two descriptions of the command word agree. -/
theorem ledWord_eq_bits (q : Pixel) : ledWord q = ledWordBits q.br q.b q.g q.r := by
  apply BitVec.eq_of_getLsbD_eq
  intro i hi
  simp only [ledWord, ledWordBits, Config.header, BitVec.getLsbD_or, BitVec.getLsbD_shiftLeft, BitVec.getLsbD_setWidth,
    BitVec.getLsbD_append]
  interval_cases i <;> simp

theorem ledWordBits_header (br : Level5) (b g r : Byte) : (ledWordBits br b g r).extractLsb' 29 3 = 0b111 := by
  apply BitVec.eq_of_getLsbD_eq
  intro i hi
  simp only [ledWordBits, BitVec.getLsbD_extractLsb', BitVec.getLsbD_append]
  interval_cases i <;> simp

theorem ledWordBits_br (br : Level5) (b g r : Byte) : (ledWordBits br b g r).extractLsb' 24 5 = br := by
  apply BitVec.eq_of_getLsbD_eq
  intro i hi
  simp only [ledWordBits, BitVec.getLsbD_extractLsb', BitVec.getLsbD_append]
  interval_cases i <;> simp

theorem ledWordBits_b (br : Level5) (b g r : Byte) : (ledWordBits br b g r).extractLsb' 16 8 = b := by
  apply BitVec.eq_of_getLsbD_eq
  intro i hi
  simp only [ledWordBits, BitVec.getLsbD_extractLsb', BitVec.getLsbD_append]
  interval_cases i <;> simp

theorem ledWordBits_g (br : Level5) (b g r : Byte) : (ledWordBits br b g r).extractLsb' 8 8 = g := by
  apply BitVec.eq_of_getLsbD_eq
  intro i hi
  simp only [ledWordBits, BitVec.getLsbD_extractLsb', BitVec.getLsbD_append]
  interval_cases i <;> simp

theorem ledWordBits_r (br : Level5) (b g r : Byte) : (ledWordBits br b g r).extractLsb' 0 8 = r := by
  apply BitVec.eq_of_getLsbD_eq
  intro i hi
  simp only [ledWordBits, BitVec.getLsbD_extractLsb', BitVec.getLsbD_append]
  interval_cases i <;> simp

theorem ledWordBits_ne_zero (br : Level5) (b g r : Byte) : ledWordBits br b g r ≠ 0 := by
  intro h
  have := ledWordBits_header br b g r
  rw [h] at this
  simp at this

/-- R67: a word with its header is the word of its own fields. -/
theorem ledWordBits_fields (w : Word) (h : w.extractLsb' 29 3 = 0b111) :
    ledWordBits (w.extractLsb' 24 5) (w.extractLsb' 16 8) (w.extractLsb' 8 8) (w.extractLsb' 0 8) = w := by
  have hbit : ∀ i, i < 3 → w.getLsbD (29 + i) = (0b111#3).getLsbD i := by
    intro i hi
    have := congrArg (fun x => x.getLsbD i) h
    simpa [hi] using this
  apply BitVec.eq_of_getLsbD_eq
  intro i hi
  simp only [ledWordBits, BitVec.getLsbD_extractLsb', BitVec.getLsbD_append]
  have h0 := hbit 0 (by decide)
  have h1 := hbit 1 (by decide)
  have h2 := hbit 2 (by decide)
  interval_cases i <;> simp_all

/-- R67: decoding the word of a record. -/
theorem decodeWire32_ledWord (q : Pixel) : decodeWire32 (ledWord q) = .ok (.ledw q.br q.b q.g q.r) := by
  rw [ledWord_eq_bits, decodeWire32, if_neg (ledWordBits_ne_zero _ _ _ _), if_pos (ledWordBits_header _ _ _ _),
    ledWordBits_br, ledWordBits_b, ledWordBits_g, ledWordBits_r]

/-- R104: while `w` holds a record's word, the instruction in flight is that record's LEDW. -/
theorem ledwInFlight_of_word {s : State} {q : Pixel} (h : s.w = ledWord q) : ledwInFlight s = some (ledwOf q) := by
  rw [ledwInFlight, h, decodeWire32_ledWord, ledWord_eq_bits, if_pos (ledWordBits_header _ _ _ _)]
  rfl

/-- R75: the instruction in flight is always a LEDW whose word is in `w`. -/
theorem ledwInFlight_some {s : State} {i : Instr} (h : ledwInFlight s = some i) :
    ∃ q : Pixel, i = ledwOf q ∧ s.w = ledWord q := by
  unfold ledwInFlight at h
  split at h
  · rename_i hh
    have hne : s.w ≠ 0 := by
      intro h0
      rw [h0] at hh
      simp at hh
    rw [decodeWire32, if_neg hne, if_pos hh] at h
    refine ⟨⟨s.w.extractLsb' 0 8, s.w.extractLsb' 8 8, s.w.extractLsb' 16 8, s.w.extractLsb' 24 5⟩, ?_, ?_⟩
    · injection h with h
      exact h.symm
    · rw [ledWord_eq_bits]
      exact (ledWordBits_fields s.w hh).symm
  · cases h

/-- R48, R68: bit `7 - j` of byte `k` is bit `31 - 8k - j` of the word. -/
theorem byteOf_getLsbD (w : Word) (k j : Nat) (hk : k < 4) (hj : j < 8) :
    (byteOf w k).getLsbD (7 - j) = w.getLsbD (31 - 8 * k - j) := by
  rw [byteOf, BitVec.getLsbD_extractLsb']
  have h1 : 7 - j < 8 := by omega
  have h2 : 24 - 8 * k + (7 - j) = 31 - 8 * k - j := by omega
  simp [h1, h2]

/-- R107: after `j` shifts the next bit to send is bit `7 - j` of the byte. -/
theorem shifted_getLsbD (x : Byte) (j : Nat) (hj : j < 8) : (x <<< j).getLsbD 7 = x.getLsbD (7 - j) := by
  rw [BitVec.getLsbD_shiftLeft]
  have h1 : ¬ 7 < j := by omega
  simp [h1]

end Sys2Proof.Machine
end

