-- ==== Sys2Proof/Laws/Encoder.lean ====
section
/-! SUPPORT. Everything a step of ENC can do, said once: `EncMove s t`, one constructor per branch of the rules R95 to R129, and
`encStep_move`, which every proof about ENC cites instead of unfolding the phases. -/

namespace Sys2Proof.Machine

/-- R123, R124: the release phase of a line that is not held changes nothing. -/
theorem releasePhase_unheld {l : Line} {s : State} (h : s.hs l ≠ .acq) : releasePhase l s = s := by
  unfold releasePhase
  cases hh : s.hs l <;> simp_all

/-- R123, R124: the release phase of a held line releases it and records its failure, if it is the first. -/
theorem releasePhase_held {l : Line} {s : State} (h : s.hs l = .acq) :
    releasePhase l s = { releaseLine l s with rerr := rerrAfter l (gpioAnswer s) s.rerr } := by
  unfold releasePhase
  rw [h]

/-- R101 to R110: the write of each write phase and what it leads to when it succeeds. -/
inductive WriteAt (s : State) : Line → Bool → (State → State) → Prop
  | sofDat : s.phase = .fSofDat → WriteAt s .dat false (startPulses .fSofHi)
  | sofHi : s.phase = .fSofHi → WriteAt s .clk true (fun s => { s with phase := .fSofLo })
  | sofLo : s.phase = .fSofLo → WriteAt s .clk false (countPulse Config.sofPulses .fSofHi .fPxLoad)
  | bitDat : s.phase = .fBitDat → WriteAt s .dat (s.sr.getLsbD 7) (fun s => { s with phase := .fBitHi })
  | bitHi : s.phase = .fBitHi → WriteAt s .clk true (fun s => { s with phase := .fBitLo })
  | bitLo : s.phase = .fBitLo → WriteAt s .clk false advanceBit
  | eofDat : s.phase = .fEofDat → WriteAt s .dat false (startPulses .fEofHi)
  | eofHi : s.phase = .fEofHi → WriteAt s .clk true (fun s => { s with phase := .fEofLo })
  | eofLo : s.phase = .fEofLo → WriteAt s .clk false (countPulse Config.eofPulses .fEofHi .fDone)

/-- What one step of ENC from `s` can lead to. -/
inductive EncMove (s : State) : State → Prop
  | quiet : s.phase = .idle → s.queue = [] → EncMove s s
  | dispatch (job : Job) (rest : List Job) : s.phase = .idle → s.queue = job :: rest →
      EncMove s { s with cur := some job, queue := rest, phase := firstPhase job }
  | start (n : Nat) (o : Origin) : s.phase = .fStart → s.cur = some (.flush n o) →
      EncMove s { captureFrame Config.frameLatch s with p := 0, phase := .fAcqClk }
  | notAcquired (n : Nat) (o : Origin) : s.phase = .fAcqClk → s.cur = some (.flush n o) →
      (s.hsClk = .rel ∨ s.hsDat = .rel) → EncMove s (endJob n (.err .notAcquired) s)
  | acquireClk (n : Nat) (o : Origin) : s.phase = .fAcqClk → s.cur = some (.flush n o) → s.hsClk = .unacq →
      s.hsDat ≠ .rel → EncMove s (afterAcquire n .clk .fAcqDat (gpioAnswer s) (acquireLine .clk s))
  | reuseClk (n : Nat) (o : Origin) : s.phase = .fAcqClk → s.cur = some (.flush n o) → s.hsClk = .acq →
      s.hsDat ≠ .rel → EncMove s { s with phase := .fAcqDat }
  | acquireDat (n : Nat) (o : Origin) : s.phase = .fAcqDat → s.cur = some (.flush n o) → s.hsDat = .unacq →
      EncMove s (afterAcquire n .dat .fSofDat (gpioAnswer s) (acquireLine .dat s))
  | reuseDat (n : Nat) (o : Origin) : s.phase = .fAcqDat → s.cur = some (.flush n o) → s.hsDat ≠ .unacq →
      EncMove s { s with phase := .fSofDat }
  | load (n : Nat) (o : Origin) (q : Pixel) : s.phase = .fPxLoad → s.cur = some (.flush n o) →
      frameRecord Config.frameLatch s = some q → EncMove s (loadWord q s)
  | wrote (n : Nat) (o : Origin) (l : Line) (v : Bool) (f : State → State) : WriteAt s l v f →
      s.cur = some (.flush n o) → s.hs l = .acq → gpioAnswer s = .ok → EncMove s (f (gpioWrite l v s))
  | writeFailed (n : Nat) (o : Origin) (l : Line) (v : Bool) (f : State → State) : WriteAt s l v f →
      s.cur = some (.flush n o) → s.hs l = .acq → gpioAnswer s = .fail →
      EncMove s (endJob n (.err (.writeFailed l)) (gpioWrite l v s))
  | done (n : Nat) (o : Origin) : s.phase = .fDone → s.cur = some (.flush n o) → EncMove s (endJob n .ok s)
  | relClk (n : Nat) (o : Origin) : s.phase = .rClk → s.cur = some (.release n o) →
      EncMove s { releasePhase .clk { s with rerr := none } with phase := .rDat }
  | relDat (n : Nat) (o : Origin) : s.phase = .rDat → s.cur = some (.release n o) →
      EncMove s { releasePhase .dat s with phase := .rDone }
  | relDone (n : Nat) (o : Origin) : s.phase = .rDone → s.cur = some (.release n o) →
      EncMove s (endJob n (releaseStatus s.rerr) s)
  | exitDone : s.phase = .xDone → s.cur = some .exitMark →
      EncMove s { emit .exited s with xs := .done, cur := none, phase := .idle }

/-- A write phase's step is one of the two write moves. -/
theorem move_of_writePhase {s t : State} {n : Nat} {o : Origin} {l : Line} {v : Bool} {f : State → State}
    (hw : WriteAt s l v f) (hc : s.cur = some (.flush n o)) (h : writePhase n l v f s = .next t) : EncMove s t := by
  obtain ⟨ha, ⟨hg, rfl⟩ | ⟨hg, rfl⟩⟩ := writePhase_next h
  · exact .wrote n o l v f hw hc ha hg
  · exact .writeFailed n o l v f hw hc ha hg

theorem execSof_move {s t : State} (h : execSof s = .next t) : EncMove s t := by
  obtain ⟨-, -, h⟩ := whenLive_next h
  obtain ⟨n, o, hc, h⟩ := inFlush_next h
  split at h
  · exact move_of_writePhase (.sofDat ‹_›) hc h
  · exact move_of_writePhase (.sofHi ‹_›) hc h
  · exact move_of_writePhase (.sofLo ‹_›) hc h
  · cases h

theorem execEof_move {s t : State} (h : execEof s = .next t) : EncMove s t := by
  obtain ⟨-, -, h⟩ := whenLive_next h
  obtain ⟨n, o, hc, h⟩ := inFlush_next h
  split at h
  · exact move_of_writePhase (.eofDat ‹_›) hc h
  · exact move_of_writePhase (.eofHi ‹_›) hc h
  · exact move_of_writePhase (.eofLo ‹_›) hc h
  · cases h

/-- A LEDW in its load phase loads its record, in a bit phase it takes that phase's write step. -/
theorem execLedw_next {s t : State} {br : Level5} {b g r : Byte} (h : execLedw br b g r s = .next t) :
    ∃ n o, s.cur = some (.flush n o) ∧
      (s.phase = .fPxLoad ∧ t = loadWord ⟨r, g, b, br⟩ s ∨
        ∃ l v f, WriteAt s l v f ∧ writePhase n l v f s = .next t) := by
  obtain ⟨-, -, h⟩ := whenLive_next h
  obtain ⟨n, o, hc, h⟩ := inFlush_next h
  refine ⟨n, o, hc, ?_⟩
  split at h
  · injection h with h
    exact .inl ⟨‹_›, h.symm⟩
  · split at h
    · exact .inr ⟨_, _, _, .bitDat ‹_›, h⟩
    · cases h
  · split at h
    · exact .inr ⟨_, _, _, .bitHi ‹_›, h⟩
    · cases h
  · split at h
    · exact .inr ⟨_, _, _, .bitLo ‹_›, h⟩
    · cases h
  · cases h

theorem execLedwOf_move {s t : State} {q : Pixel} (hq : s.phase = .fPxLoad → frameRecord Config.frameLatch s = some q)
    (h : exec (ledwOf q) s = .next t) : EncMove s t := by
  obtain ⟨n, o, hc, ⟨hp, rfl⟩ | ⟨l, v, f, hw, h⟩⟩ := execLedw_next h
  · exact .load n o q hp hc (hq hp)
  · exact move_of_writePhase hw hc h

/-- Every step of ENC is one of the moves. -/
theorem encStep_move {s t : State} (h : encStep s = .next t) : EncMove s t := by
  unfold encStep at h
  cases hp : s.phase <;> simp only [encFetch, hp] at h
  case idle =>
    simp only [encInternal, hp, encDispatch] at h
    split at h
    · injection h with h
      subst h
      exact .quiet hp ‹_›
    · injection h with h
      subst h
      exact .dispatch _ _ hp ‹_›
  case fStart =>
    simp only [encInternal, hp] at h
    obtain ⟨n, o, hc, h⟩ := inFlush_next h
    injection h with h
    subst h
    exact .start n o hp hc
  case fAcqClk =>
    simp only [encInternal, hp] at h
    obtain ⟨n, o, hc, h⟩ := inFlush_next h
    split at h
    · injection h with h
      subst h
      exact .notAcquired n o hp hc ‹_›
    · rename_i hr
      rw [not_or] at hr
      split at h
      · injection h with h
        subst h
        exact .acquireClk n o hp hc ‹_› hr.2
      · injection h with h
        subst h
        refine .reuseClk n o hp hc ?_ hr.2
        cases hh : s.hsClk <;> simp_all
  case fAcqDat =>
    simp only [encInternal, hp] at h
    obtain ⟨n, o, hc, h⟩ := inFlush_next h
    split at h
    · injection h with h
      subst h
      exact .acquireDat n o hp hc ‹_›
    · injection h with h
      subst h
      exact .reuseDat n o hp hc ‹_›
  case fSofDat => exact execSof_move h
  case fSofHi => exact execSof_move h
  case fSofLo => exact execSof_move h
  case fEofDat => exact execEof_move h
  case fEofHi => exact execEof_move h
  case fEofLo => exact execEof_move h
  case fPxLoad =>
    cases hq : frameRecord Config.frameLatch s with
    | none => simp [hq, encInternal, hp] at h
    | some q =>
      simp only [hq, Option.map_some] at h
      exact execLedwOf_move (fun _ => hq) h
  case fBitDat =>
    cases hq : ledwInFlight s with
    | none => simp [hq, encInternal, hp] at h
    | some i =>
      obtain ⟨q, rfl, -⟩ := ledwInFlight_some hq
      simp only [hq] at h
      exact execLedwOf_move (fun e => by simp [hp] at e) h
  case fBitHi =>
    cases hq : ledwInFlight s with
    | none => simp [hq, encInternal, hp] at h
    | some i =>
      obtain ⟨q, rfl, -⟩ := ledwInFlight_some hq
      simp only [hq] at h
      exact execLedwOf_move (fun e => by simp [hp] at e) h
  case fBitLo =>
    cases hq : ledwInFlight s with
    | none => simp [hq, encInternal, hp] at h
    | some i =>
      obtain ⟨q, rfl, -⟩ := ledwInFlight_some hq
      simp only [hq] at h
      exact execLedwOf_move (fun e => by simp [hp] at e) h
  case fDone =>
    simp only [encInternal, hp] at h
    obtain ⟨n, o, hc, h⟩ := inFlush_next h
    injection h with h
    subst h
    exact .done n o hp hc
  case rClk =>
    simp only [encInternal, hp] at h
    obtain ⟨n, o, hc, h⟩ := inRelease_next h
    injection h with h
    subst h
    exact .relClk n o hp hc
  case rDat =>
    simp only [encInternal, hp] at h
    obtain ⟨n, o, hc, h⟩ := inRelease_next h
    injection h with h
    subst h
    exact .relDat n o hp hc
  case rDone =>
    simp only [encInternal, hp] at h
    obtain ⟨n, o, hc, h⟩ := inRelease_next h
    injection h with h
    subst h
    exact .relDone n o hp hc
  case xDone =>
    simp only [encInternal, hp, encExitDone] at h
    split at h
    · injection h with h
      subst h
      exact .exitDone hp ‹_›
    · cases h
    · cases h
    · cases h

end Sys2Proof.Machine
end

