-- ==== Sys2Proof/Laws/Commands.lean ====
section
/-! SUPPORT. Everything a command can do, said once: `CommandMove s t`, and with it `StepMove s t`, everything a step of the machine
can do. -/

namespace Sys2Proof.Machine

/-- An event a command reports to its issuer: a RET or an ERR. -/
def Event.isReport : Event → Bool
  | .ret _ _ _ => true
  | .err _ _ _ _ => true
  | _ => false

/-- What a command from `s` can lead to. -/
inductive CommandMove (s : State) : State → Prop
  | refuse (r : RefReason) : CommandMove s { s with refused := some r }
  | report (b : Pixels) (c : Bool) (d : Nat) (e : Event) : s.xs = .notStarted → e.isReport = true →
      CommandMove s (emit e { s with buf := b, clearOnExit := c, draws := d })
  | submit (job : Job) (e : Event) : s.xs = .notStarted → e.isReport = true → job.ticket? = some s.nextTicket →
      CommandMove s (emit e (enqueue job (takeTicket s)))
  | exit : s.xs = .notStarted → CommandMove s (exitRelease (exitFlush { s with xs := .running }))
  | exitAgain : s.xs ≠ .notStarted → CommandMove s s

/-- A command's meaning behind its acceptance is a move if its effect is. -/
theorem move_of_accept {s t : State} {k : Result} (h : accept s k = .next t)
    (hk : s.xs = .notStarted → k = .next t → CommandMove s t) : CommandMove s t := by
  obtain ⟨-, ⟨hx, hk'⟩ | ⟨-, rfl⟩⟩ := accept_next h
  · exact hk hx hk'
  · exact .refuse _

theorem move_of_error {s : State} (src : Source) (op : Op) (f : Failure) (fs : List Failure) (hx : s.xs = .notStarted) :
    CommandMove s (raiseError src op f fs s) :=
  .report s.buf s.clearOnExit (s.draws + 1) _ hx rfl

theorem move_of_submit {s : State} {src : Source} {op : Op} {job : Nat → Job} (hx : s.xs = .notStarted)
    (hj : (job s.nextTicket).ticket? = some s.nextTicket) :
    CommandMove s (submit Config.queueDepth src op job s) :=
  .submit (job s.nextTicket) _ hx rfl hj

/-- Every next state a command gives is one of the moves. -/
theorem exec_command_move {i : Instr} {src : Source} {s t : State} (hi : i.source? = some src)
    (h : exec i s = .next t) : CommandMove s t := by
  cases i with
  | clear src =>
    refine move_of_accept h fun hx hk => ?_
    injection hk with hk
    subst hk
    exact .report _ s.clearOnExit s.draws _ hx rfl
  | getPixel src a =>
    refine move_of_accept h fun hx hk => ?_
    split at hk <;> injection hk with hk <;> subst hk
    · exact .report s.buf s.clearOnExit s.draws _ hx rfl
    · exact move_of_error _ _ _ _ hx
  | setAll src a0 a1 a2 a3 =>
    refine move_of_accept h fun hx hk => ?_
    split at hk <;> injection hk with hk <;> subst hk
    · exact .report _ s.clearOnExit s.draws _ hx rfl
    · exact move_of_error _ _ _ _ hx
  | setPixel src a0 a1 a2 a3 a4 =>
    refine move_of_accept h fun hx hk => ?_
    split at hk <;> injection hk with hk <;> subst hk
    · exact .report _ s.clearOnExit s.draws _ hx rfl
    · exact move_of_error _ _ _ _ hx
  | setBrightness src a =>
    refine move_of_accept h fun hx hk => ?_
    split at hk <;> injection hk with hk <;> subst hk
    · exact .report _ s.clearOnExit s.draws _ hx rfl
    · exact move_of_error _ _ _ _ hx
  | setClearOnExit src a =>
    refine move_of_accept h fun hx hk => ?_
    split at hk <;> injection hk with hk <;> subst hk
    · exact .report s.buf _ s.draws _ hx rfl
    · exact .refuse _
  | showFrame src =>
    refine move_of_accept h fun hx hk => ?_
    injection hk with hk
    subst hk
    exact move_of_submit hx rfl
  | pixelCount src =>
    refine move_of_accept h fun hx hk => ?_
    injection hk with hk
    subst hk
    exact .report s.buf s.clearOnExit s.draws _ hx rfl
  | release src =>
    refine move_of_accept h fun hx hk => ?_
    injection hk with hk
    subst hk
    exact move_of_submit hx rfl
  | exit src =>
    obtain ⟨-, hk⟩ := unlessRefused_next h
    split at hk <;> injection hk with hk <;> subst hk
    · exact .exit ‹_›
    · exact .exitAgain (by simp [*])
    · exact .exitAgain (by simp [*])
  | sof => cases hi
  | ledw br b g r => cases hi
  | eof => cases hi
  | gpioAcq l => cases hi
  | gpioWr l v => cases hi
  | gpioRel l => cases hi

/-- R60: what the command port decodes to is a command of the issuing agent. -/
theorem decodeCommand_source {c : RawCommand} {i : Instr} (h : decodeCommand c = .ok i) : i.source? = some c.src := by
  unfold decodeCommand at h
  split at h
  · rename_i j n hj hn
    split at h
    · injection h with h
      subst h
      unfold instrOfOpcode at hj
      split at hj <;> first | (injection hj with hj; subst hj; rfl) | cases hj
    · cases h
  · cases h

/-- Every step of an issuing agent is a move of its command, from the state with the command taken. -/
theorem issueStep_move {c : RawCommand} {s t : State} (h : issueStep c s = .next t) :
    CommandMove (takeCommand c s) t := by
  unfold issueStep at h
  split at h
  · rename_i i hi
    exact exec_command_move (decodeCommand_source hi) h
  · injection h with h
    subst h
    exact .refuse _

/-- What one step of the machine from `s` can lead to. -/
inductive StepMove (s : State) : State → Prop
  | stay : StepMove s s
  | command (c : RawCommand) (t : State) : s.refused = none → CommandMove (takeCommand c s) t → StepMove s t
  | encoder (t : State) : s.refused = none → s.xs ≠ .done → EncMove (advanceTurn s) t → StepMove s t

/-- Every step of the machine is one of the moves. -/
theorem step_move {s t : State} (h : step s = .next t) : StepMove s t := by
  obtain ⟨hr, rfl | ⟨c, -, hc⟩ | ⟨hx, -, he⟩⟩ := step_next h
  · exact .stay
  · exact .command c t hr (issueStep_move hc)
  · exact .encoder t hr hx (encStep_move he)

end Sys2Proof.Machine
end

