-- ==== Sys2Proof/Laws/PerInstr.lean ====
section
/-! SUPPORT. One statement for every instruction: its encoding has the width and the fixed bits of its row of
spec/opcode_table.json. -/

namespace Sys2Proof.Laws

open Sys2Proof.Machine

/-- The fixed part of an opcode-table row: the width of its format's word, its mask and its match. -/
structure FixedRow where
  width : Nat
  mask : Nat
  value : Nat
  deriving DecidableEq, Repr

/-- The row of spec/opcode_table.json an instruction has. -/
def tableRow : Instr → FixedRow
  | .clear _ => ⟨8, 0xFF, 0x01⟩
  | .getPixel _ _ => ⟨8, 0xFF, 0x02⟩
  | .setAll _ _ _ _ _ => ⟨8, 0xFF, 0x03⟩
  | .setPixel _ _ _ _ _ _ => ⟨8, 0xFF, 0x04⟩
  | .setBrightness _ _ => ⟨8, 0xFF, 0x05⟩
  | .setClearOnExit _ _ => ⟨8, 0xFF, 0x06⟩
  | .showFrame _ => ⟨8, 0xFF, 0x07⟩
  | .pixelCount _ => ⟨8, 0xFF, 0x08⟩
  | .release _ => ⟨8, 0xFF, 0x09⟩
  | .exit _ => ⟨8, 0xFF, 0x0A⟩
  | .sof => ⟨32, 0xFFFFFFFF, 0x00000000⟩
  | .ledw _ _ _ _ => ⟨32, 0xE0000000, 0xE0000000⟩
  | .eof => ⟨36, 0xFFFFFFFFF, 0x000000000⟩
  | .gpioAcq _ => ⟨4, 0xD, 0x0⟩
  | .gpioWr _ _ => ⟨4, 0xC, 0x4⟩
  | .gpioRel _ => ⟨4, 0xD, 0x8⟩

/-- The width and the bits of the word a table row describes: a command's opcode byte, a wire word, a GPIO event's form. -/
def tableWord : Encoded → Nat × Nat
  | .command c => (8, c.op.toNat)
  | .wire32 w => (32, w.toNat)
  | .wire36 w => (36, w.toNat)
  | .gpioEvent e => (4, e.toNat)

namespace FixedBits

/-- The encoding has the row's width and, under the row's mask, the row's bits. -/
def Statement (i : Instr) : Prop :=
  (tableWord (encode i)).1 = (tableRow i).width ∧
    (tableWord (encode i)).2 &&& (tableRow i).mask = (tableRow i).value

theorem clear (src : Source) : Statement (.clear src) :=
  ⟨rfl, by simp [tableWord, tableRow, encode]⟩

theorem getPixel (src : Source) (index : HostValue) : Statement (.getPixel src index) :=
  ⟨rfl, by simp [tableWord, tableRow, encode]⟩

theorem setAll (src : Source) (red green blue brightness : HostValue) :
    Statement (.setAll src red green blue brightness) :=
  ⟨rfl, by simp [tableWord, tableRow, encode]⟩

theorem setPixel (src : Source) (index red green blue brightness : HostValue) :
    Statement (.setPixel src index red green blue brightness) :=
  ⟨rfl, by simp [tableWord, tableRow, encode]⟩

theorem setBrightness (src : Source) (brightness : HostValue) : Statement (.setBrightness src brightness) :=
  ⟨rfl, by simp [tableWord, tableRow, encode]⟩

theorem setClearOnExit (src : Source) (flag : HostValue) : Statement (.setClearOnExit src flag) :=
  ⟨rfl, by simp [tableWord, tableRow, encode]⟩

theorem showFrame (src : Source) : Statement (.showFrame src) :=
  ⟨rfl, by simp [tableWord, tableRow, encode]⟩

theorem pixelCount (src : Source) : Statement (.pixelCount src) :=
  ⟨rfl, by simp [tableWord, tableRow, encode]⟩

theorem release (src : Source) : Statement (.release src) :=
  ⟨rfl, by simp [tableWord, tableRow, encode]⟩

theorem exit (src : Source) : Statement (.exit src) :=
  ⟨rfl, by simp [tableWord, tableRow, encode]⟩

theorem sof : Statement .sof :=
  ⟨rfl, by simp [tableWord, tableRow, encode]⟩

theorem ledw (br : Level5) (b g r : Byte) : Statement (.ledw br b g r) := by
  refine ⟨rfl, ?_⟩
  have h : ledWordBits br b g r &&& 0xE0000000#32 = 0xE0000000#32 := by
    apply BitVec.eq_of_getLsbD_eq
    intro i hi
    simp only [ledWordBits, BitVec.getLsbD_and, BitVec.getLsbD_append]
    interval_cases i <;> simp
  exact congrArg BitVec.toNat h

theorem eof : Statement .eof :=
  ⟨rfl, by simp [tableWord, tableRow, encode]⟩

theorem gpioAcq (line : Line) : Statement (.gpioAcq line) := by cases line <;> exact ⟨rfl, by decide⟩

theorem gpioWr (line : Line) (level : Bool) : Statement (.gpioWr line level) := by
  cases line <;> cases level <;> exact ⟨rfl, by decide⟩

theorem gpioRel (line : Line) : Statement (.gpioRel line) := by cases line <;> exact ⟨rfl, by decide⟩

end FixedBits

end Sys2Proof.Laws
end

