-- ==== Sys2Proof/Tests/Slice0.lean ====
section
/-! SUPPORT. Tests of the model on fixed values, their expected results taken from spec/95_test_vectors.md and the encoding
tables, and a witness for the hypotheses of every statement. -/

namespace Sys2Proof.Tests

open Sys2Proof.Machine Sys2Proof.Safety

/-! ### Helpers -/

/-- The outcome is a next state and `p` holds of it. -/
def goesTo (r : Result) (p : State → Bool) : Bool :=
  match r with
  | .next t => p t
  | .fault _ => false
  | .refused _ => false

/-- The agent of the tests. -/
def h0 : Source := .host 0

/-- The origin of host 0's jobs. -/
def h0o : Origin := .host 0

/-- Host 0's command with opcode `op` and one operand. -/
def cmd1 (op : Byte) (a : HostValue) : RawCommand := { src := h0, op, a0 := a }

def n0 : HostValue := .num 0
def nMinusZero : HostValue := .num 0x8000000000000000
def nHalf : HostValue := .num 0x3FE0000000000000
def n1 : HostValue := .num 0x3FF0000000000000
def n1andHalf : HostValue := .num 0x3FF8000000000000
def n3 : HostValue := .num 0x4008000000000000
def n7 : HostValue := .num 0x401C000000000000
def n8 : HostValue := .num 0x4020000000000000
def n10 : HostValue := .num 0x4024000000000000
def n20 : HostValue := .num 0x4034000000000000
def n30 : HostValue := .num 0x403E000000000000
def n254p9 : HostValue := .num 0x406FDCCCCCCCCCCD
def n255 : HostValue := .num 0x406FE00000000000
def n256 : HostValue := .num 0x4070000000000000
def nMinus1 : HostValue := .num 0xBFF0000000000000
def nNaN : HostValue := .num 0x7FF8000000000000
def nInf : HostValue := .num 0x7FF0000000000000

/-- Reset with one command on the port. -/
def onPort (c : RawCommand) : State := { State.reset with port := [c] }

/-- A flush in progress at a phase, both lines held, with the GPIO outcomes `as` settled. -/
def flushAt (ph : Phase) (as : List GpioOutcome) : State := { flushing ph State.reset with answers := as }

/-- The record (255, 0, 0, 31) of S8's pixel 3. -/
def red : Pixel := ⟨255, 0, 0, 31⟩

/-- A flush in progress in a bit phase of the record `red`. -/
def bitAt (ph : Phase) (as : List GpioOutcome) : State :=
  { flushAt ph as with w := ledWord red, sr := byteOf (ledWord red) 0, latch := State.reset.latch.set 0 red }

/-- Reset with only the GPIO outcomes `as` settled. -/
def answering (as : List GpioOutcome) : State := { State.reset with answers := as }

/-- Both lines held, no job, with the GPIO outcomes `as` settled. -/
def heldLines (as : List GpioOutcome) : State :=
  { State.reset with hsClk := .acq, hsDat := .acq, lvlClk := .low, lvlDat := .low, answers := as }

/-! ### Well-formedness -/

theorem test_wf_host0 : (Instr.clear h0).wellFormed = true := by
  simp [Instr.wellFormed, Instr.source?, Source.exists?, h0, Config.hosts]

/-- R152: there is no host numbered HOSTS. -/
theorem test_wf_refuses_host_beyond_hosts : (Instr.clear (.host Config.hosts)).wellFormed = false := by
  simp [Instr.wellFormed, Instr.source?, Source.exists?]

theorem test_wf_frames : Instr.sof.wellFormed = true ∧ (Instr.gpioWr .dat true).wellFormed = true := by decide

/-! ### Decoding: one word of every constructor, written out from R60, R67, R69, R70 and R77 -/

theorem test_decode_clear : decode (.command ⟨h0, 0x01, .absent, .absent, .absent, .absent, .absent⟩) = .ok (.clear h0) := by decide

theorem test_decode_getPixel : decode (.command ⟨.host 5, 0x02, n3, .absent, .absent, .absent, .absent⟩) =
    .ok (.getPixel (.host 5) n3) := by decide

theorem test_decode_setAll : decode (.command ⟨h0, 0x03, n10, n20, n30, nHalf, .absent⟩) =
    .ok (.setAll h0 n10 n20 n30 nHalf) := by decide

theorem test_decode_setPixel : decode (.command ⟨h0, 0x04, n3, n255, n0, .other, n1⟩) =
    .ok (.setPixel h0 n3 n255 n0 .other n1) := by decide

theorem test_decode_setBrightness : decode (.command ⟨h0, 0x05, n1, .absent, .absent, .absent, .absent⟩) =
    .ok (.setBrightness h0 n1) := by decide

theorem test_decode_setClearOnExit : decode (.command ⟨h0, 0x06, .bool false, .absent, .absent, .absent, .absent⟩) =
    .ok (.setClearOnExit h0 (.bool false)) := by decide

theorem test_decode_show : decode (.command ⟨h0, 0x07, .absent, .absent, .absent, .absent, .absent⟩) =
    .ok (.showFrame h0) := by decide

theorem test_decode_pixelCount : decode (.command ⟨h0, 0x08, .absent, .absent, .absent, .absent, .absent⟩) =
    .ok (.pixelCount h0) := by decide

theorem test_decode_release : decode (.command ⟨h0, 0x09, .absent, .absent, .absent, .absent, .absent⟩) =
    .ok (.release h0) := by decide

theorem test_decode_exit : decode (.command ⟨.exitSrc, 0x0A, .absent, .absent, .absent, .absent, .absent⟩) =
    .ok (.exit .exitSrc) := by decide

theorem test_decode_sof : decode (.wire32 0b00000000000000000000000000000000) = .ok .sof := by decide

/-- 95_test_vectors.md 2.5: (1, 2, 3, 4) is 0xE4030201; header 111, level 00100, blue 3, green 2, red 1. -/
theorem test_decode_ledw : decode (.wire32 0b11100100000000110000001000000001) = .ok (.ledw 4 3 2 1) := by decide

theorem test_decode_eof : decode (.wire36 0x000000000) = .ok .eof := by decide

theorem test_decode_gpioAcq : decode (.gpioEvent 0b0000) = .ok (.gpioAcq .clk) ∧
    decode (.gpioEvent 0b0010) = .ok (.gpioAcq .dat) := by decide

theorem test_decode_gpioWr : decode (.gpioEvent 0b0100) = .ok (.gpioWr .clk false) ∧
    decode (.gpioEvent 0b0101) = .ok (.gpioWr .clk true) ∧ decode (.gpioEvent 0b0111) = .ok (.gpioWr .dat true) := by decide

theorem test_decode_gpioRel : decode (.gpioEvent 0b1000) = .ok (.gpioRel .clk) ∧
    decode (.gpioEvent 0b1010) = .ok (.gpioRel .dat) := by decide

/-- R73, R59, R75, R70, R77: words that are no instruction, each refused by its own name. -/
theorem test_decode_refuses : decode (.command { src := h0, op := 0x00 }) = .error .reservedOpcode ∧
    decode (.command { src := h0, op := 0x0B }) = .error .reservedOpcode ∧
    decode (.command { src := h0, op := 0x01, a0 := n1 }) = .error .beyondArity ∧
    decode (.command { src := h0, op := 0x02, a0 := n0, a1 := n1 }) = .error .beyondArity ∧
    decode (.wire32 0x60000000) = .error .reservedWireWord ∧ decode (.wire36 1) = .error .notEndFrame ∧
    decode (.gpioEvent 0b1100) = .error .malformedGpioEvent ∧ decode (.gpioEvent 0b0001) = .error .malformedGpioEvent := by
  decide

/-- Every row of spec/opcode_table.json, by its match word. -/
theorem test_table_words : [decodeTableWord 8 0x01, decodeTableWord 8 0x02, decodeTableWord 8 0x03, decodeTableWord 8 0x04,
      decodeTableWord 8 0x05, decodeTableWord 8 0x06, decodeTableWord 8 0x07, decodeTableWord 8 0x08,
      decodeTableWord 8 0x09, decodeTableWord 8 0x0A, decodeTableWord 32 0, decodeTableWord 32 0xE0000000,
      decodeTableWord 40 0, decodeTableWord 4 0x0, decodeTableWord 4 0x4, decodeTableWord 4 0x8] =
    [some (.clear h0), some (.getPixel h0 .absent), some (.setAll h0 .absent .absent .absent .absent),
      some (.setPixel h0 .absent .absent .absent .absent .absent), some (.setBrightness h0 .absent),
      some (.setClearOnExit h0 .absent), some (.showFrame h0), some (.pixelCount h0), some (.release h0),
      some (.exit h0), some .sof, some (.ledw 0 0 0 0), some .eof, some (.gpioAcq .clk), some (.gpioWr .clk false),
      some (.gpioRel .clk)] := by decide

/-- R78's example, character by character. -/
theorem test_assemble_example : assembleLine ['s', 'e', 't', 'P', 'i', 'x', 'e', 'l', ' ', '3', ',', ' ', '2', '5', '5', ',', ' ', '0',
      ',', ' ', '0', ',', ' ', '1', '.', '0'] = some ⟨h0, 0x04, n3, n255, n0, n0, n1⟩ := by decide +kernel

/-- `h2: show`, `!exit` (P4), `getPixel -0`, `getPixel null`, and a string operand (P2, command 5). -/
theorem test_assemble_lines : assembleLine ['h', '2', ':', ' ', 's', 'h', 'o', 'w'] = some { src := .host 2, op := 0x07 } ∧
    assembleLine ['!', 'e', 'x', 'i', 't'] = some { src := .exitSrc, op := 0x0A } ∧
    assembleLine ['g', 'e', 't', 'P', 'i', 'x', 'e', 'l', ' ', '-', '0'] = some (cmd1 0x02 nMinusZero) ∧
    assembleLine ['g', 'e', 't', 'P', 'i', 'x', 'e', 'l', ' ', 'n', 'u', 'l', 'l'] = some (cmd1 0x02 .absent) ∧
    assembleLine ['s', 'e', 't', 'P', 'i', 'x', 'e', 'l', ' ', '0', ',', quoteChar, 'x', ',', quoteChar, ',', '0', ',', '0'] =
      some ⟨h0, 0x04, n0, .other, n0, n0, .absent⟩ ∧
    assembleLine ['s', 'h', 'o', 'w', '3'] = none := by decide +kernel

/-! ### Operand checks and quantizers: 95_test_vectors.md 2.1, 2.2, 2.3, 2.5 -/

theorem test_chkIndex : chkIndex n0 = .ok 0 ∧ chkIndex n7 = .ok 7 ∧ chkIndex nMinusZero = .ok 0 ∧
    chkIndex n8 = .bad ⟨.range, .index⟩ [] ∧ chkIndex nMinus1 = .bad ⟨.range, .index⟩ [] ∧
    chkIndex n1andHalf = .bad ⟨.range, .index⟩ [] ∧ chkIndex nNaN = .bad ⟨.range, .index⟩ [] ∧
    chkIndex nInf = .bad ⟨.range, .index⟩ [] ∧ chkIndex .other = .bad ⟨.type, .index⟩ [] := by decide +kernel

theorem test_chkColour : chkColour n254p9 = .ok 254 ∧ chkColour n255 = .ok 255 ∧ chkColour nMinusZero = .ok 0 ∧
    chkColour (.num 0x406FE00000000004) = .bad ⟨.range, .colour⟩ [] ∧ chkColour n256 = .bad ⟨.range, .colour⟩ [] ∧
    chkColour .absent = .bad ⟨.type, .colour⟩ [] := by decide +kernel

/-- 2.2: 1 is 31, the largest number below 1 is 30, 0.3 is 9, and fl(1/31) is 1 although the exact product is below 1. -/
theorem test_chkBrightness : chkBrOpt n1 = .ok (some 31) ∧ chkBrReq (.num 0x3FEFFFFFFFFFFFFF) = .ok 30 ∧
    chkBrReq (.num 0x3FD3333333333333) = .ok 9 ∧ chkBrReq (.num 0x3FA0842108421084) = .ok 1 ∧
    chkBrReq (.num 0x0000000000000001) = .ok 0 ∧ chkBrOpt (.num 0x3FF0000000000001) = .bad ⟨.range, .brightness⟩ [] ∧
    chkBrOpt .absent = .ok none ∧ chkBrReq .absent = .bad ⟨.type, .brightness⟩ [] := by decide +kernel

theorem test_chkBoolOpt : chkBoolOpt .absent = some true ∧ chkBoolOpt (.bool false) = some false ∧ chkBoolOpt n0 = none := by
  decide

/-- R86: levels 7, 15 and 31 read as the binary64 numbers nearest to 0.226, 0.484 and 1. -/
theorem test_brightnessFraction : brightnessFraction 7 = 0x3FCCED916872B021 ∧ brightnessFraction 15 = 0x3FDEF9DB22D0E560 ∧
    brightnessFraction 31 = 0x3FF0000000000000 := by decide +kernel

theorem test_ledWord : ledWord red = 0xFF0000FF ∧ ledWord ⟨10, 20, 30, 15⟩ = 0xEF1E140A ∧
    ledWord ⟨0x12, 0x34, 0x56, 31⟩ = 0xFF563412 := by decide

/-! ### Buffer commands: 95_test_vectors.md 2.4 -/

/-- `clear` after `setAll 10, 20, 30, 0.5`: every record (0, 0, 0, 15). -/
theorem test_clear : goesTo (exec (.clear h0) { State.reset with buf := Vector.replicate 8 ⟨10, 20, 30, 15⟩ })
    (fun t => t.buf = Vector.replicate 8 ⟨0, 0, 0, 15⟩) = true := by decide

/-- `getPixel 0` after reset: [0, 0, 0, 0.226]. -/
theorem test_getPixel : goesTo (exec (.getPixel h0 n0) State.reset)
    (fun t => t.trace = [.ret h0 .getPixel (.pixel 0 0 0 0x3FCCED916872B021)]) = true := by decide +kernel

/-- `getPixel 8`: E_RANGE, the index named. -/
theorem test_getPixel_range : goesTo (exec (.getPixel h0 n8) State.reset)
    (fun t => t.trace = [.err h0 .getPixel .range .index]) = true := by decide +kernel

/-- `setAll 10, 20, 30, 0.5`: every record (10, 20, 30, 15). -/
theorem test_setAll : goesTo (exec (.setAll h0 n10 n20 n30 nHalf) State.reset)
    (fun t => t.buf = Vector.replicate 8 ⟨10, 20, 30, 15⟩) = true := by decide +kernel

/-- `setAll 256, 0, 0`: E_RANGE, the buffer unchanged. -/
theorem test_setAll_range : goesTo (exec (.setAll h0 n256 n0 n0 .absent) State.reset)
    (fun t => t.buf = State.reset.buf && t.trace = [.err h0 .setAll .range .colour]) = true := by decide +kernel

/-- `setPixel 3, 255, 0, 0, 1.0`: record 3 is (255, 0, 0, 31), its neighbours as before. -/
theorem test_setPixel : goesTo (exec (.setPixel h0 n3 n255 n0 n0 n1) State.reset)
    (fun t => t.buf[3] = red && t.buf[2] = ⟨0, 0, 0, 7⟩ && t.buf[4] = ⟨0, 0, 0, 7⟩) = true := by decide +kernel

/-- `setPixel 0, "x", 0, 0`: E_TYPE of a colour, the buffer unchanged (P2, command 5). -/
theorem test_setPixel_type : goesTo (exec (.setPixel h0 n0 .other n0 n0 .absent) State.reset)
    (fun t => t.buf = State.reset.buf && t.trace = [.err h0 .setPixel .type .colour]) = true := by decide +kernel

/-- `setBrightness 0.999`: every level 30. -/
theorem test_setBrightness : goesTo (exec (.setBrightness h0 (.num 0x3FEFF7CED916872B)) State.reset)
    (fun t => t.buf = Vector.replicate 8 ⟨0, 0, 0, 30⟩) = true := by decide +kernel

/-- `setBrightness`: E_TYPE. -/
theorem test_setBrightness_type : goesTo (exec (.setBrightness h0 .absent) State.reset)
    (fun t => t.trace = [.err h0 .setBrightness .type .brightness]) = true := by decide

/-- `pixelCount`: 8. -/
theorem test_pixelCount : goesTo (exec (.pixelCount h0) State.reset)
    (fun t => t.trace = [.ret h0 .pixelCount (.count 8)]) = true := by decide

/-! ### Jobs and the exit sequence: 95_test_vectors.md 2.10, 2.12, 2.13 -/

/-- `setClearOnExit false` stores it; `setClearOnExit 1` is refused, `REF_BOOL`. -/
theorem test_setClearOnExit : goesTo (exec (.setClearOnExit h0 (.bool false)) State.reset) (fun t => !t.clearOnExit) = true ∧
    goesTo (exec (.setClearOnExit h0 n1) State.reset) (fun t => t.refused = some .bool && t.trace = []) = true := by decide

theorem test_show : goesTo (exec (.showFrame h0) State.reset)
    (fun t => t.queue = [.flush 0 (.host 0)] && t.nextTicket = 1 && t.trace = [.ret h0 .showFrame (.ticket 0)]) = true := by
  decide

/-- Behind two queued flushes a RELEASE takes ticket 2. -/
theorem test_release : goesTo
    (exec (.release h0) { State.reset with queue := [.flush 0 (.host 0), .flush 1 (.host 0)], nextTicket := 2 })
    (fun t => t.queue = [.flush 0 (.host 0), .flush 1 (.host 0), .release 2 (.host 0)] &&
      t.trace = [.ret h0 .release (.ticket 2)]) = true := by decide

theorem test_exit : goesTo (exec (.exit .exitSrc) State.reset)
    (fun t => t.xs = .running && t.queue = [.flush 0 .exit, .release 1 .exit, .exitMark] && t.nextTicket = 2 &&
      t.trace = []) = true := by decide

/-- `exit`, then `h0: setClearOnExit 1`: refused like every host command, `REF_AFTER_EXIT` (R121's corner case, R146). -/
theorem test_setClearOnExit_after_exit : goesTo (exec (.setClearOnExit h0 n1) { State.reset with xs := .running })
    (fun t => t.refused = some .afterExit && t.clearOnExit) = true := by decide

/-- `exit`, then `h0: clear`: refused, `REF_AFTER_EXIT`. -/
theorem test_clear_after_exit : goesTo (exec (.clear h0) { State.reset with xs := .running })
    (fun t => t.refused = some .afterExit && t.buf = State.reset.buf) = true := by decide

/-! ### Frames: 95_test_vectors.md 2.6, 2.7 -/

/-- Write 0 of a flush: WR(DAT, 0). -/
theorem test_sof : goesTo (exec .sof (flushAt .fSofDat [.ok]))
    (fun t => t.trace = [.wr .dat false .ok] && t.phase = .fSofHi && t.cnt = 0) = true := by decide

/-- f = 64: the last write of the start frame fails; CLK is X, DAT is 0. -/
theorem test_sof_fails : goesTo (exec .sof { flushAt .fSofLo [.fail] with cnt := 31 })
    (fun t => t.trace = [.wr .clk false .fail, .done 0 (.err (.writeFailed .clk))] && t.lvlClk = .x && t.lvlDat = .low &&
      t.phase = .idle) = true := by decide

/-- Write 353: bit 7 of 0xFF, WR(DAT, 1). -/
theorem test_ledw : goesTo (exec (.ledw 31 0 0 255) (bitAt .fBitDat [.ok]))
    (fun t => t.trace = [.wr .dat true .ok] && t.lvlDat = .high && t.phase = .fBitHi) = true := by decide

/-- Write 832: after bit 0 of byte 3 of pixel 7 the end frame follows. -/
theorem test_ledw_last : goesTo (exec (.ledw 31 0 0 255) { bitAt .fBitLo [.ok] with p := 7, k := 3, j := 7 })
    (fun t => t.trace = [.wr .clk false .ok] && t.phase = .fEofDat && t.j = 8) = true := by decide

/-- Write 905: the 36th pulse falls, the flush is done. -/
theorem test_eof : goesTo (exec .eof { flushAt .fEofLo [.ok] with cnt := 35 })
    (fun t => t.trace = [.wr .clk false .ok] && t.phase = .fDone && t.cnt = 36) = true := by decide

/-- f = 833: the data write of the end frame fails. -/
theorem test_eof_fails : goesTo (exec .eof (flushAt .fEofDat [.fail]))
    (fun t => t.trace = [.wr .dat false .fail, .done 0 (.err (.writeFailed .dat))] && t.lvlDat = .x && t.lvlClk = .low) = true := by
  decide

/-! ### GPIO actions: 95_test_vectors.md 2.8, 2.9 -/

theorem test_gpioAcq : goesTo (exec (.gpioAcq .clk) (answering [.ok]))
    (fun t => t.trace = [.acq .clk .ok] && t.hsClk = .acq && t.lvlClk = .low && t.hsDat = .unacq) = true := by decide

theorem test_gpioAcq_fails : goesTo (exec (.gpioAcq .dat) (answering [.fail]))
    (fun t => t.trace = [.acq .dat .fail] && t.hsDat = .unacq && t.lvlDat = .z) = true := by decide

theorem test_gpioWr : goesTo (exec (.gpioWr .dat true) (heldLines [.ok]))
    (fun t => t.trace = [.wr .dat true .ok] && t.lvlDat = .high && t.lvlClk = .low) = true := by decide

theorem test_gpioWr_fails : goesTo (exec (.gpioWr .clk true) (heldLines [.fail])) (fun t => t.lvlClk = .x) = true := by decide

theorem test_gpioRel : goesTo (exec (.gpioRel .dat) (heldLines [.ok]))
    (fun t => t.trace = [.rel .dat .ok] && t.hsDat = .rel && t.lvlDat = .z && t.hsClk = .acq) = true := by decide

/-- A failed release still leaves the handle released, the level unknown. -/
theorem test_gpioRel_fails : goesTo (exec (.gpioRel .clk) (heldLines [.fail]))
    (fun t => t.hsClk = .rel && t.lvlClk = .x) = true := by decide

/-! ### The first step after placing a row's word -/

theorem test_fetch_command : goesTo (step (State.reset.withFetchWord 8 0x01))
    (fun t => t.trace = [.ret h0 .clear .unit]) = true := by decide

theorem test_fetch_every_command : ∀ w ∈ [1, 2, 3, 4, 5, 6, 7, 8, 9, 10],
    goesTo (step (State.reset.withFetchWord 8 w)) (fun _ => true) = true := by decide

theorem test_fetch_frames : goesTo (step (State.reset.withFetchWord 32 0xFF0000FF))
      (fun t => t.w = 0xFF0000FF && t.sr = 0xFF && t.phase = .fBitDat) = true ∧
    goesTo (step (State.reset.withFetchWord 32 0)) (fun _ => true) = true ∧
    goesTo (step (State.reset.withFetchWord 40 0)) (fun _ => true) = true := by decide

theorem test_fetch_gpio : goesTo (step (State.reset.withFetchWord 4 0x0)) (fun _ => true) = true ∧
    goesTo (step (State.reset.withFetchWord 4 0x5)) (fun _ => true) = true ∧
    goesTo (step (State.reset.withFetchWord 4 0x8)) (fun t => t.phase = .rDat && t.hsClk = .rel) = true := by decide

/-! ### Witnesses: for every statement with hypotheses, a state and operands that meet all of them -/

/-- Reset with one SHOW accepted. -/
def shown : State := { State.reset with queue := [.flush 0 h0o], nextTicket := 1 }

theorem shown_inv : Inv shown :=
  ⟨by decide, by decide, by decide, by decide, rfl, rfl, rfl, trivial, by simp [exitFits, jobsPending, shown, State.reset]⟩

theorem shown_ledger : TicketLedger shown := rfl

theorem shown_lines : TraceShowsLines shown := by intro l; cases l <;> exact ⟨rfl, rfl⟩

theorem witness_StepKeepsInvariant : ∃ t, Inv shown ∧ step shown = .next t ∧ t.phase = .fStart := ⟨_, shown_inv, rfl, rfl⟩

theorem witness_StepKeepsTicketLedger : ∃ t, Inv shown ∧ TicketLedger shown ∧ step shown = .next t :=
  ⟨_, shown_inv, shown_ledger, rfl⟩

theorem witness_StepKeepsTraceShowsLines : ∃ t, TraceShowsLines shown ∧ step shown = .next t := ⟨_, shown_lines, rfl⟩

theorem witness_StepNeverStopsInInvariantStates : Inv shown ∧ shown.refused = none := ⟨shown_inv, rfl⟩

theorem witness_EncodeDecodeAgree : decode (.wire32 0xE4030201) = .ok (.ledw 4 3 2 1) ∧
    decode (.gpioEvent 0b0111) = .ok (.gpioWr .dat true) ∧ decode (.wire36 0) = .ok .eof ∧
    decode (.command (cmd1 0x05 n1)) = .ok (.setBrightness h0 n1) := by decide

theorem live_of_notStarted {s : State} (hr : s.refused = none) (hx : s.xs = .notStarted) : Live s :=
  ⟨hr, by rw [hx]; decide⟩

theorem chooseAgent_onPort (c : RawCommand) : chooseAgent (onPort c) = some (.issuer c) := by
  simp [chooseAgent, readyAgents, onPort, nextCommands, held, queueFull, Config.queueDepth, busy, State.reset]

theorem reset_accepting : Accepting State.reset := ⟨rfl, rfl⟩

theorem reset_live : Live State.reset := ⟨rfl, by decide⟩

/-- Reset with one command on the port and the exit sequence under way. -/
def onPortExiting (c : RawCommand) : State := { onPort c with xs := .running }

theorem chooseAgent_onPortExiting (c : RawCommand) : chooseAgent (onPortExiting c) = some (.issuer c) := by
  simp [chooseAgent, readyAgents, onPortExiting, onPort, nextCommands, held, queueFull, Config.queueDepth, busy, State.reset]

/-- The first and the last opcode of each reserved range, before EXIT and while the exit sequence runs. -/
theorem witness_ReservedOpcodeRefused : ∀ op ∈ [(0x00 : Byte), 0x0B, 0xFF], (op = 0x00 ∨ 0x0B ≤ op) ∧
    (Live (onPort (cmd1 op .absent)) ∧
      chooseAgent (onPort (cmd1 op .absent)) = some (.issuer (cmd1 op .absent))) ∧
    (Live (onPortExiting (cmd1 op .absent)) ∧ (onPortExiting (cmd1 op .absent)).xs = .running ∧
      chooseAgent (onPortExiting (cmd1 op .absent)) = some (.issuer (cmd1 op .absent))) := by
  intro op h
  exact ⟨by revert op; decide, ⟨live_of_notStarted rfl rfl, chooseAgent_onPort _⟩,
    ⟨rfl, by simp [onPortExiting]⟩, rfl, chooseAgent_onPortExiting _⟩

/-- One operand beyond arity 0, one beyond arity 1, a SET_CLEAR_ON_EXIT that two reasons refuse, and an EXIT; before EXIT and while the exit
sequence runs. -/
theorem witness_OperandBeyondArityRefused :
    ∀ c ∈ [cmd1 0x01 n1, { cmd1 0x02 n0 with a1 := n1 }, { cmd1 0x06 n1 with a1 := n1 }, cmd1 0x0A n1],
      (∃ n, arity c.op = some n ∧ c.absentFrom n = false) ∧
        (Live (onPort c) ∧ chooseAgent (onPort c) = some (.issuer c)) ∧
        (Live (onPortExiting c) ∧ (onPortExiting c).xs = .running ∧ chooseAgent (onPortExiting c) = some (.issuer c)) := by
  intro c h
  refine ⟨?_, ⟨live_of_notStarted rfl rfl, chooseAgent_onPort c⟩, ⟨rfl, by simp [onPortExiting]⟩, rfl,
    chooseAgent_onPortExiting c⟩
  simp only [List.mem_cons, List.not_mem_nil, or_false] at h
  rcases h with rfl | rfl | rfl | rfl
  · exact ⟨0, by decide⟩
  · exact ⟨1, by decide⟩
  · exact ⟨1, by decide⟩
  · exact ⟨0, by decide⟩

theorem witness_StepRunsDecodedCommand : Live (onPort (cmd1 0x02 n7)) ∧
    chooseAgent (onPort (cmd1 0x02 n7)) = some (.issuer (cmd1 0x02 n7)) ∧
    decode (.command (cmd1 0x02 n7)) = .ok (.getPixel h0 n7) := ⟨⟨rfl, by decide⟩, rfl, by decide⟩

/-- The three clauses: nothing to do, ENC alone, a host's command alone. -/
theorem witness_ScheduleKeepsProgramOrder : chooseAgent State.reset = none ∧ chooseAgent shown = some .enc ∧
    chooseAgent (onPort (cmd1 0x01 .absent)) = some (.issuer (cmd1 0x01 .absent)) := by decide

theorem flushAt_live (ph : Phase) (as : List GpioOutcome) : Live (flushAt ph as) := live_of_notStarted rfl rfl

theorem bitAt_live (ph : Phase) (as : List GpioOutcome) : Live (bitAt ph as) := live_of_notStarted rfl rfl

/-- Every phase of the frames, ENC alone with a step; in `F_PX_LOAD` the first and the last pixel. -/
theorem witness_StepRunsFrameInstruction :
    (∀ ph ∈ [Phase.fSofDat, .fSofHi, .fSofLo, .fEofDat, .fEofHi, .fEofLo],
      Live (flushAt ph []) ∧ chooseAgent (flushAt ph []) = some .enc ∧ (flushAt ph []).phase = ph) ∧
    (∀ p ∈ [0, 7], Live { flushAt .fPxLoad [] with p := p } ∧
      chooseAgent { flushAt .fPxLoad [] with p := p } = some .enc ∧ p < Config.pixels) ∧
    (∀ ph ∈ [Phase.fBitDat, .fBitHi, .fBitLo],
      Live (bitAt ph []) ∧ chooseAgent (bitAt ph []) = some .enc ∧ (bitAt ph []).w = ledWord red ∧
        (bitAt ph []).phase = ph) := by
  refine ⟨fun ph h => ⟨flushAt_live ph _, ?_, rfl⟩, fun p h => ⟨live_of_notStarted rfl rfl, rfl, by revert p; decide⟩,
    fun ph h => ⟨bitAt_live ph _, ?_, rfl, rfl⟩⟩
  · revert ph; decide
  · revert ph; decide

/-- Every write phase, on a line that is held. -/
theorem witness_WritePhasesIssueOneGpioWr :
    ∀ ph ∈ [Phase.fSofDat, .fSofHi, .fSofLo, .fBitDat, .fBitHi, .fBitLo, .fEofDat, .fEofHi, .fEofLo],
      Live (bitAt ph [.ok]) ∧ (bitAt ph [.ok]).cur = some (.flush 0 h0o) ∧ (∀ l, (bitAt ph [.ok]).hs l = .acq) ∧
        (phaseWrite (bitAt ph [.ok]) red).isSome = true := by
  intro ph h
  refine ⟨bitAt_live ph _, rfl, by intro l; cases l <;> rfl, by revert ph; decide⟩

theorem witness_ClearBlackensEveryPixel : Accepting State.reset := reset_accepting

theorem witness_PixelCountReturnsTheCount : Accepting State.reset := reset_accepting

/-- The first and the last index. -/
theorem witness_GetPixelReturnsTheRecord : Accepting State.reset ∧ chkIndex n0 = .ok 0 ∧ chkIndex n7 = .ok 7 :=
  ⟨reset_accepting, by decide +kernel, by decide +kernel⟩

/-- The least and the greatest colour, brightness omitted, least and greatest. -/
theorem witness_SetAllPaintsEveryPixel : Accepting State.reset ∧ chkColour n0 = .ok 0 ∧ chkColour n255 = .ok 255 ∧
    chkBrOpt .absent = .ok none ∧ chkBrOpt n0 = .ok (some 0) ∧ chkBrOpt n1 = .ok (some 31) :=
  ⟨reset_accepting, by decide +kernel, by decide +kernel, by decide, by decide +kernel, by decide +kernel⟩

theorem witness_SetPixelPaintsOnePixel : Accepting State.reset ∧ chkIndex n7 = .ok 7 ∧ chkColour n0 = .ok 0 ∧
    chkColour n255 = .ok 255 ∧ chkColour n254p9 = .ok 254 ∧ chkBrOpt n1 = .ok (some 31) :=
  ⟨reset_accepting, by decide +kernel, by decide +kernel, by decide +kernel, by decide +kernel, by decide +kernel⟩

theorem witness_SetBrightnessSetsEveryLevel : Accepting State.reset ∧ chkBrReq n0 = .ok 0 ∧ chkBrReq n1 = .ok 31 :=
  ⟨reset_accepting, by decide +kernel, by decide +kernel⟩

/-- Each of the four commands with a failing check: all of one kind, and of both kinds. -/
theorem witness_InvalidOperandsWriteNothing : Accepting State.reset ∧ failuresOf (chkIndex n8) ≠ [] ∧
    failuresOf (chkBrReq .absent) ≠ [] ∧
    failuresOf (chkColour n256) ++ failuresOf (chkColour n0) ++ failuresOf (chkColour n0) ++
      failuresOf (chkBrOpt .absent) = [⟨.range, .colour⟩] ∧
    failuresOf (chkIndex n0) ++ failuresOf (chkColour n256) ++ failuresOf (chkColour n0) ++
      failuresOf (chkColour n0) ++ failuresOf (chkBrOpt .other) = [⟨.range, .colour⟩, ⟨.type, .brightness⟩] :=
  ⟨reset_accepting, by decide +kernel, by decide +kernel, by decide +kernel, by decide +kernel⟩

/-- The number a binary64 value stands for, its fields given. -/
theorem real_of_fields {x : Binary64} {e m : Nat} {neg : Bool} (he : (x.extractLsb' 52 11).toNat = e)
    (hm : (x.extractLsb' 0 52).toNat = m) (hs : x.msb = neg) (h0 : e ≠ 0) (h1 : e ≠ 2047) :
    binary64Real x = some (if neg then -((1 + (m : ℚ) / 2 ^ 52) * (2 : ℚ) ^ ((e : ℤ) - 1023))
      else (1 + (m : ℚ) / 2 ^ 52) * (2 : ℚ) ^ ((e : ℤ) - 1023)) := by
  simp only [binary64Real, he, hm, hs, if_neg h0, if_neg h1]

theorem real_zero : binary64Real 0 = some 0 := by simp [binary64Real]

theorem real_nan : binary64Real 0x7FF8000000000000 = none := by
  have h : ((0x7FF8000000000000 : Binary64).extractLsb' 52 11).toNat = 2047 := by decide
  simp only [binary64Real, h]
  simp

/-- 7.0 is 1.75 times 2 to the 2. -/
theorem real_seven : binary64Real 0x401C000000000000 = some 7 := by
  rw [real_of_fields (e := 1025) (m := 3377699720527872) (neg := false) (by decide) (by decide) (by decide) (by decide)
    (by decide)]
  norm_num

theorem real_255 : binary64Real 0x406FE00000000000 = some 255 := by
  rw [real_of_fields (e := 1030) (m := 4468415255281664) (neg := false) (by decide) (by decide) (by decide) (by decide)
    (by decide)]
  norm_num

theorem real_one : binary64Real 0x3FF0000000000000 = some 1 := by
  rw [real_of_fields (e := 1023) (m := 0) (neg := false) (by decide) (by decide) (by decide) (by decide) (by decide)]
  norm_num

theorem real_minus_one : binary64Real 0xBFF0000000000000 = some (-1) := by
  rw [real_of_fields (e := 1023) (m := 0) (neg := true) (by decide) (by decide) (by decide) (by decide) (by decide)]
  norm_num

/-- Each clause: an operand that is no number, the first and the last index, NaN. -/
theorem witness_IndexCheckFollowsTheNumber : (∀ x, HostValue.absent ≠ .num x) ∧
    binary64Real 0 = some (((0 : Fin Config.pixels).val : ℚ)) ∧
    binary64Real 0x401C000000000000 = some (((7 : Fin Config.pixels).val : ℚ)) ∧
    (∀ i : Fin Config.pixels, binary64Real 0x7FF8000000000000 ≠ some (i.val : ℚ)) := by
  refine ⟨by simp, ?_, ?_, ?_⟩
  · rw [real_zero]; norm_num
  · rw [real_seven]; norm_num
  · intro i
    rw [real_nan]
    exact nofun

/-- Each clause: no number, the least and the greatest colour, -1. -/
theorem witness_ColourCheckFollowsTheNumber : (∀ x, HostValue.other ≠ .num x) ∧
    (∃ q, binary64Real 0 = some q ∧ 0 ≤ q ∧ q ≤ 255) ∧
    (∃ q, binary64Real 0x406FE00000000000 = some q ∧ 0 ≤ q ∧ q ≤ 255) ∧
    (∀ q, binary64Real 0xBFF0000000000000 = some q → ¬ (0 ≤ q ∧ q ≤ 255)) := by
  refine ⟨by simp, ⟨0, real_zero, by norm_num⟩, ⟨255, real_255, by norm_num⟩, ?_⟩
  intro q h
  rw [real_minus_one] at h
  injection h with h
  subst h
  norm_num

/-- Each clause: no number, the least and the greatest brightness, -1. -/
theorem witness_BrightnessChecksFollowTheNumber : (HostValue.other = .other ∨ ∃ b, HostValue.other = .bool b) ∧
    (∃ q, binary64Real 0 = some q ∧ 0 ≤ q ∧ q ≤ 1) ∧
    (∃ q, binary64Real 0x3FF0000000000000 = some q ∧ 0 ≤ q ∧ q ≤ 1) ∧
    (∀ q, binary64Real 0xBFF0000000000000 = some q → ¬ (0 ≤ q ∧ q ≤ 1)) := by
  refine ⟨.inl rfl, ⟨0, real_zero, by norm_num⟩, ⟨1, real_one, by norm_num⟩, ?_⟩
  intro q h
  rw [real_minus_one] at h
  injection h with h
  subst h
  norm_num

theorem witness_BrightnessIsFloorOfRoundedProduct :
    (∃ q, binary64Real 0 = some q ∧ 0 ≤ q ∧ q ≤ 1) ∧ ∃ q, binary64Real 0x3FF0000000000000 = some q ∧ 0 ≤ q ∧ q ≤ 1 :=
  ⟨⟨0, real_zero, by norm_num⟩, ⟨1, real_one, by norm_num⟩⟩

/-- 254.999, and the largest finite number itself. -/
theorem witness_DecimalLiteralsAreNearest : ((254999 : ℕ) : ℚ) / 10 ^ 3 ≤ (2 ^ 53 - 1) * 2 ^ 971 ∧
    ((9007199254740991 * 2 ^ 971 : ℕ) : ℚ) / 10 ^ 0 ≤ (2 ^ 53 - 1) * 2 ^ 971 := by
  constructor
  · have h : (1 : ℚ) ≤ 2 ^ 971 := one_le_pow₀ (by norm_num)
    exact le_trans (by norm_num : ((254999 : ℕ) : ℚ) / 10 ^ 3 ≤ (2 ^ 53 - 1) * 1)
      (mul_le_mul_of_nonneg_left h (by norm_num))
  · rw [pow_zero, div_one, Nat.cast_mul, Nat.cast_pow]
    exact mul_le_mul_of_nonneg_right (by norm_num) (by positivity)

/-- The operands of the indexes 0 to 7. -/
def indexOperand (i : Fin Config.pixels) : HostValue :=
  [n0, n1, .num 0x4000000000000000, n3, .num 0x4010000000000000, .num 0x4014000000000000, .num 0x4018000000000000,
    n7].getD i.val n0

theorem witness_SetAllEqualsSetPixelInSequence : Accepting State.reset ∧ (∀ i, chkIndex (indexOperand i) = .ok i) ∧
    chkColour n10 = .ok 10 ∧ chkColour n20 = .ok 20 ∧ chkColour n30 = .ok 30 ∧ chkBrOpt nHalf = .ok (some 15) :=
  ⟨reset_accepting, by decide +kernel, by decide +kernel, by decide +kernel, by decide +kernel, by decide +kernel⟩

theorem witness_SetPixelThenGetPixelReadsBack : Accepting State.reset ∧ chkIndex n7 = .ok 7 ∧ chkColour n255 = .ok 255 ∧
    chkColour n0 = .ok 0 ∧ chkColour n254p9 = .ok 254 :=
  ⟨reset_accepting, by decide +kernel, by decide +kernel, by decide +kernel, by decide +kernel⟩

theorem witness_SetBrightnessThenGetPixelReadsBack : Accepting State.reset ∧ chkBrReq nHalf = .ok 15 ∧
    chkIndex n0 = .ok 0 ∧ chkIndex n7 = .ok 7 :=
  ⟨reset_accepting, by decide +kernel, by decide +kernel, by decide +kernel⟩

/-- Each of the three commands, on operands that pass and on operands that fail. -/
theorem witness_OmittedBrightnessNeverDrifts : goesTo (exec (.clear h0) State.reset) (fun _ => true) = true ∧
    goesTo (exec (.setAll h0 n10 n20 n30 .absent) State.reset) (fun _ => true) = true ∧
    goesTo (exec (.setPixel h0 n7 n10 n20 n30 .absent) State.reset) (fun _ => true) = true ∧
    goesTo (exec (.setPixel h0 n8 n10 n20 n30 .absent) State.reset) (fun _ => true) = true := by decide +kernel

theorem witness_SetClearOnExitStoresOrIsRefused : Accepting State.reset := reset_accepting

/-- A host and EXITSRC. -/
theorem witness_ShowAndReleaseQueueAJob : Accepting State.reset ∧
    ((∀ h, h0 = .host h → h0o = .host h) ∧ (h0 = .exitSrc → h0o = .exit)) ∧
    ((∀ h, Source.exitSrc = .host h → Origin.exit = .host h) ∧ (Source.exitSrc = .exitSrc → Origin.exit = .exit)) :=
  ⟨reset_accepting, ⟨by simp [h0, h0o], by simp [h0]⟩, by simp, by simp⟩

/-- `clearOnExit` as reset leaves it, switched off, and the exit sequence under way or ended. -/
theorem witness_ExitQueuesTheExitSequence : Accepting State.reset ∧ State.reset.clearOnExit = true ∧
    Accepting { State.reset with clearOnExit := false } ∧
    (∀ x ∈ [ExitState.running, .done], ({ State.reset with xs := x } : State).refused = none ∧ x ≠ .notStarted) :=
  ⟨reset_accepting, rfl, ⟨rfl, rfl⟩, fun x h => ⟨rfl, by revert x; decide⟩⟩

/-- A host's CLEAR, a SET_CLEAR_ON_EXIT whose operand is no boolean, and a SHOW of EXITSRC. -/
theorem witness_CommandsAfterExitRefused : ({ State.reset with xs := .running } : State).refused = none ∧
    (Instr.clear h0).source? = some h0 ∧ (∀ src, Instr.clear h0 ≠ .exit src) ∧
    (Instr.setClearOnExit h0 n1).source? = some h0 ∧ (∀ src, Instr.setClearOnExit h0 n1 ≠ .exit src) ∧
    chkBoolOpt n1 = none ∧ (Instr.showFrame .exitSrc).source? = some .exitSrc ∧
    (∀ src, Instr.showFrame .exitSrc ≠ .exit src) := ⟨rfl, rfl, by simp, rfl, by simp, rfl, rfl, by simp⟩

theorem witness_RefusalStopsEverything : ({ State.reset with refused := some .opcode } : State).refused = some .opcode := rfl

/-- A job queued, and none. -/
theorem witness_DispatchStartsTheHeadJob : shown.phase = .idle ∧ shown.refused = none ∧ shown.queue = [.flush 0 h0o] ∧
    State.reset.phase = .idle ∧ State.reset.refused = none ∧ State.reset.queue = [] := ⟨rfl, rfl, rfl, rfl, rfl, rfl⟩

theorem witness_FlushStartsWithSnapshotAndCompletes : (flushAt .fStart []).cur = some (.flush 0 h0o) ∧
    (flushAt .fStart []).phase = .fStart ∧ (flushAt .fDone []).cur = some (.flush 0 h0o) ∧
    (flushAt .fDone []).phase = .fDone := ⟨rfl, rfl, rfl, rfl⟩

/-- A flush job at `ph` with the handles as given. -/
def acquiringAt (ph : Phase) (clk dat : HandleState) (as : List GpioOutcome) : State :=
  { flushAt ph as with hsClk := clk, hsDat := dat }

/-- Each branch of the two acquire phases. -/
theorem witness_AcquirePhases : (∀ ph clk dat as, (acquiringAt ph clk dat as).cur = some (.flush 0 h0o)) ∧
    (acquiringAt .fAcqClk .acq .rel []).hsDat = .rel ∧
    ((acquiringAt .fAcqClk .unacq .unacq [.ok]).hsClk = .unacq ∧ (acquiringAt .fAcqClk .unacq .unacq [.ok]).hsDat ≠ .rel ∧
      gpioAnswer (acquiringAt .fAcqClk .unacq .unacq [.ok]) = .ok) ∧
    gpioAnswer (acquiringAt .fAcqClk .unacq .unacq [.fail]) = .fail ∧
    ((acquiringAt .fAcqClk .acq .acq []).hsClk = .acq ∧ (acquiringAt .fAcqClk .acq .acq []).hsDat ≠ .rel) ∧
    ((acquiringAt .fAcqDat .acq .unacq [.ok]).hsDat = .unacq ∧ gpioAnswer (acquiringAt .fAcqDat .acq .unacq [.ok]) = .ok) ∧
    gpioAnswer (acquiringAt .fAcqDat .acq .unacq [.fail]) = .fail ∧
    (acquiringAt .fAcqDat .acq .acq []).hsDat ≠ .unacq := by
  refine ⟨fun _ _ _ _ => rfl, ?_⟩
  decide

theorem flushAt_held (ph : Phase) (as : List GpioOutcome) : bothHeld (flushAt ph as) := ⟨rfl, rfl⟩

theorem flushAt_cnt (ph : Phase) (as : List GpioOutcome) : (flushAt ph as).cnt = 0 := rfl

theorem bitAt_held (ph : Phase) (as : List GpioOutcome) : bothHeld (bitAt ph as) := ⟨rfl, rfl⟩

/-- Each phase of SOF; in `F_SOF_LO` a pulse that is not the last and the last. -/
theorem witness_SofStepsSendTheStartFrame :
    (∀ ph ∈ [Phase.fSofDat, .fSofHi, .fSofLo], Live (flushAt ph [.ok]) ∧ (flushAt ph [.ok]).cur = some (.flush 0 h0o) ∧
      bothHeld (flushAt ph [.ok]) ∧ gpioAnswer (flushAt ph [.ok]) = .ok ∧ (flushAt ph [.ok]).cnt + 1 ≠ 32) ∧
    ({ flushAt .fSofLo [.ok] with cnt := 31 } : State).cnt + 1 = 32 :=
  ⟨fun ph _ => ⟨flushAt_live ph _, rfl, flushAt_held ph _, rfl, by rw [flushAt_cnt]; decide⟩, rfl⟩

/-- A flush in progress at `F_BIT_LO` of the record `red`, at bit `j` of byte `k` of pixel `p`. -/
def bitLoAt (p k j : Nat) : State := { bitAt .fBitLo [.ok] with p := p, k := k, j := j }

/-- Each phase of LEDW; in `F_BIT_LO` a bit that is not the last of its byte, the last one of the first and the third byte, of the first and
the last pixel but one, and of the last pixel. -/
theorem witness_LedwStepsSendTheWord :
    (Live (flushAt .fPxLoad []) ∧ (flushAt .fPxLoad []).cur = some (.flush 0 h0o)) ∧
    (∀ ph ∈ [Phase.fBitDat, .fBitHi, .fBitLo], Live (bitAt ph [.ok]) ∧ (bitAt ph [.ok]).cur = some (.flush 0 h0o) ∧
      bothHeld (bitAt ph [.ok]) ∧ gpioAnswer (bitAt ph [.ok]) = .ok ∧ (bitAt ph [.ok]).w = ledWord red) ∧
    (∀ p k j, Live (bitLoAt p k j) ∧ (bitLoAt p k j).cur = some (.flush 0 h0o) ∧ bothHeld (bitLoAt p k j) ∧
      gpioAnswer (bitLoAt p k j) = .ok ∧ (bitLoAt p k j).w = ledWord red ∧ (bitLoAt p k j).phase = .fBitLo) ∧
    (bitLoAt 0 0 0).j + 1 < 8 ∧ (bitLoAt 7 3 6).j + 1 < 8 ∧
    (8 ≤ (bitLoAt 0 0 7).j + 1 ∧ (bitLoAt 0 0 7).k < 3) ∧ (8 ≤ (bitLoAt 7 2 7).j + 1 ∧ (bitLoAt 7 2 7).k < 3) ∧
    (8 ≤ (bitLoAt 0 3 7).j + 1 ∧ 3 ≤ (bitLoAt 0 3 7).k ∧ (bitLoAt 0 3 7).p < 7) ∧
    (8 ≤ (bitLoAt 6 3 7).j + 1 ∧ 3 ≤ (bitLoAt 6 3 7).k ∧ (bitLoAt 6 3 7).p < 7) ∧
    (8 ≤ (bitLoAt 7 3 7).j + 1 ∧ 3 ≤ (bitLoAt 7 3 7).k ∧ 7 ≤ (bitLoAt 7 3 7).p) :=
  ⟨⟨flushAt_live _ _, rfl⟩, fun ph _ => ⟨bitAt_live ph _, rfl, bitAt_held ph _, rfl, rfl⟩,
    fun _ _ _ => ⟨live_of_notStarted rfl rfl, rfl, ⟨rfl, rfl⟩, rfl, rfl, rfl⟩, by decide⟩

/-- Each phase of EOF; in `F_EOF_LO` a pulse that is not the last and the last. -/
theorem witness_EofStepsSendTheEndFrame :
    (∀ ph ∈ [Phase.fEofDat, .fEofHi, .fEofLo], Live (flushAt ph [.ok]) ∧ (flushAt ph [.ok]).cur = some (.flush 0 h0o) ∧
      bothHeld (flushAt ph [.ok]) ∧ gpioAnswer (flushAt ph [.ok]) = .ok ∧ (flushAt ph [.ok]).cnt + 1 ≠ 36) ∧
    ({ flushAt .fEofLo [.ok] with cnt := 35 } : State).cnt + 1 = 36 :=
  ⟨fun ph _ => ⟨flushAt_live ph _, rfl, flushAt_held ph _, rfl, by rw [flushAt_cnt]; decide⟩, rfl⟩

theorem witness_WriteFailureEndsTheFlush :
    ∀ ph ∈ [Phase.fSofDat, .fSofHi, .fSofLo, .fBitDat, .fBitHi, .fBitLo, .fEofDat, .fEofHi, .fEofLo],
      Live (bitAt ph [.fail]) ∧ (bitAt ph [.fail]).cur = some (.flush 0 h0o) ∧ (∀ l, (bitAt ph [.fail]).hs l = .acq) ∧
        (phaseWrite (bitAt ph [.fail]) red).isSome = true ∧ gpioAnswer (bitAt ph [.fail]) = .fail := by
  intro ph h
  refine ⟨bitAt_live ph _, rfl, by intro l; cases l <;> rfl, by revert ph; decide, rfl⟩

/-- The handle states and the outcomes the three GPIO statements tell apart. -/
theorem witness_GpioAcqAcquiresTheLine : Live (answering [.ok]) ∧ (∀ l, (answering [.ok]).hs l = .unacq) ∧
    gpioAnswer (answering [.ok]) = .ok ∧ gpioAnswer (answering [.fail]) = .fail ∧ (∀ l, (heldLines []).hs l = .acq) ∧
    ({ State.reset with hsClk := .rel } : State).hs .clk = .rel :=
  ⟨⟨rfl, by decide⟩, by intro l; cases l <;> rfl, rfl, rfl, by intro l; cases l <;> rfl, rfl⟩

theorem witness_GpioWrDrivesTheLine : Live (heldLines [.ok]) ∧ (∀ l, (heldLines [.ok]).hs l = .acq) ∧
    gpioAnswer (heldLines [.ok]) = .ok ∧ gpioAnswer (heldLines [.fail]) = .fail ∧ (∀ l, State.reset.hs l ≠ .acq) :=
  ⟨⟨rfl, by decide⟩, by intro l; cases l <;> rfl, rfl, rfl, by intro l; cases l <;> decide⟩

theorem witness_GpioRelReleasesTheLine : Live (heldLines [.ok]) ∧ (∀ l, (heldLines [.ok]).hs l = .acq) ∧
    gpioAnswer (heldLines [.ok]) = .ok ∧ gpioAnswer (heldLines [.fail]) = .fail ∧ (∀ l, State.reset.hs l ≠ .acq) :=
  witness_GpioWrDrivesTheLine

/-- A release job at `ph`, the lines held or not. -/
def releaseAt (ph : Phase) (held : Bool) : State :=
  { releasing ph State.reset with hsClk := if held then .acq else .unacq, hsDat := if held then .acq else .unacq }

theorem witness_ReleasePhases : ∀ ph ∈ [Phase.rClk, .rDat, .rDone], ∀ held : Bool,
    (releaseAt ph held).cur = some (.release 0 h0o) ∧ (releaseAt ph held).phase = ph ∧
      ((releaseAt ph held).hsClk = .acq ↔ held = true) ∧ ((releaseAt ph held).hsDat = .acq ↔ held = true) := by
  intro ph _ held
  cases held <;> exact ⟨rfl, rfl, by simp [releaseAt], by simp [releaseAt]⟩

theorem witness_ReleaseOfUnheldLinesIsANoOp : OnlyEncoder { State.reset with queue := [.release 0 h0o], nextTicket := 1 } ∧
    ({ State.reset with queue := [.release 0 h0o], nextTicket := 1 } : State).queue = .release 0 h0o :: [] ∧
    State.reset.hsClk ≠ .acq ∧ State.reset.hsDat ≠ .acq := ⟨⟨⟨rfl, by decide⟩, rfl⟩, rfl, by decide, by decide⟩

theorem witness_ExitMarkEndsTheSequence :
    ({ State.reset with cur := some .exitMark, phase := .xDone, xs := .running } : State).cur = some .exitMark ∧
      ({ State.reset with cur := some .exitMark, phase := .xDone, xs := .running } : State).phase = .xDone ∧
      ({ State.reset with cur := some .exitMark, phase := .xDone, xs := .running } : State).refused = none := ⟨rfl, rfl, rfl⟩

theorem flushAt_onlyEncoder (ph : Phase) (as : List GpioOutcome) : OnlyEncoder (flushAt ph as) := ⟨flushAt_live ph as, rfl⟩

theorem witness_SofRunSendsThirtyTwoPulses : OnlyEncoder (flushAt .fSofDat (List.replicate 65 .ok ++ [.fail])) ∧
    (flushAt .fSofDat (List.replicate 65 .ok ++ [.fail])).cur = some (.flush 0 h0o) ∧
    bothHeld (flushAt .fSofDat (List.replicate 65 .ok ++ [.fail])) := ⟨flushAt_onlyEncoder _ _, rfl, rfl, rfl⟩

/-- The first and the last pixel. -/
theorem witness_LedwRunSendsThirtyTwoBits : ∀ p ∈ [0, 7], p < Config.pixels ∧
    OnlyEncoder { flushAt .fPxLoad (List.replicate 96 .ok) with p := p } ∧
    ({ flushAt .fPxLoad (List.replicate 96 .ok) with p := p } : State).cur = some (.flush 0 h0o) ∧
    bothHeld { flushAt .fPxLoad (List.replicate 96 .ok) with p := p } ∧
    ({ flushAt .fPxLoad (List.replicate 96 .ok) with p := p } : State).answers = List.replicate 96 .ok ++ [] := by
  intro p hp
  refine ⟨by revert p; decide, ⟨live_of_notStarted rfl rfl, rfl⟩, rfl, ⟨rfl, rfl⟩, (List.append_nil _).symm⟩

theorem witness_EofRunSendsThirtySixPulses : OnlyEncoder (flushAt .fEofDat (List.replicate 73 .ok ++ [.fail])) ∧
    (flushAt .fEofDat (List.replicate 73 .ok ++ [.fail])).cur = some (.flush 0 h0o) ∧
    bothHeld (flushAt .fEofDat (List.replicate 73 .ok ++ [.fail])) := ⟨flushAt_onlyEncoder _ _, rfl, rfl, rfl⟩

/-- A flush at `F_START` with the handles as given and as many `ok` outcomes as it needs. -/
def startingAt (clk dat : HandleState) (n : Nat) : State :=
  { flushAt .fStart (List.replicate n .ok ++ []) with hsClk := clk, hsDat := dat }

/-- The first flush (908 actions), one after a failed acquisition of the data line (907), and a later one (906). -/
theorem witness_FlushSendsTheWholeFrame :
    (∀ clk dat n, OnlyEncoder (startingAt clk dat n) ∧ (startingAt clk dat n).phase = .fStart ∧
      (startingAt clk dat n).cur = some (.flush 0 h0o) ∧ (startingAt clk dat n).hsClk = clk ∧
      (startingAt clk dat n).hsDat = dat ∧ (startingAt clk dat n).answers = List.replicate n .ok ++ []) ∧
    HandleState.unacq ≠ .rel ∧ HandleState.acq ≠ .rel ∧
    ([Event.acq .clk .ok] ++ [Event.acq .dat .ok]).length + 906 = 908 ∧ ([] ++ [Event.acq .dat .ok]).length + 906 = 907 ∧
    (([] : List Event) ++ []).length + 906 = 906 :=
  ⟨fun _ _ _ => ⟨⟨live_of_notStarted rfl rfl, rfl⟩, rfl, rfl, rfl, rfl, rfl⟩, by decide, by decide, rfl, rfl, rfl⟩

/-- A command and a step of ENC that give a next state. -/
theorem witness_CommandsAndEncoderKeepApart : (Instr.pixelCount h0).source? = some h0 ∧
    goesTo (exec (.pixelCount h0) State.reset) (fun _ => true) = true ∧ goesTo (encStep shown) (fun _ => true) = true := by
  decide

theorem witness_TraceOnlyGrows : ∃ t, step (onPort (cmd1 0x08 .absent)) = .next t ∧ t.trace ≠ [] := ⟨_, rfl, by decide⟩

/-- A step that acquires a line and one that releases it; ENC busy in a phase, and with a job queued only. -/
theorem witness_PhasesAndHandlesMoveLegally :
    goesTo (step (acquiringAt .fAcqClk .unacq .unacq [.ok])) (fun t => t.hsClk = .acq) = true ∧
    goesTo (step (releaseAt .rClk true)) (fun t => t.hsClk = .rel) = true ∧
    ((flushAt .fStart []).phase ≠ .idle ∧ goesTo (encStep (flushAt .fStart [])) (fun t => t.phase = .fAcqClk) = true) ∧
    (shown.queue ≠ [] ∧ goesTo (encStep shown) (fun t => t.phase = .fStart) = true) := by decide

/-- The first phase of a flush after reset. -/
def firstFlush : State := { State.reset with phase := .fStart, cur := some (.flush 0 h0o), nextTicket := 1 }

theorem witness_EveryJobEnds : Inv firstFlush ∧ OnlyEncoder firstFlush ∧ firstFlush.phase ≠ .idle := by
  refine ⟨⟨by decide, by decide, by decide, by decide, rfl, rfl, ⟨0, h0o, rfl⟩, trivial, ?_⟩, ⟨⟨rfl, by decide⟩, rfl⟩, by decide⟩
  simp [exitFits, jobsPending, firstFlush, State.reset]

end Sys2Proof.Tests
end

/-! ### The step of an issuing agent -/

namespace Sys2Proof.Machine

open Sys2Proof.Safety

/-- R7, R50: while agents may step, the step is that of the agent chosen, here one that issues a command. -/
theorem step_of_issuer {s : State} {c : RawCommand} (hl : Live s) (hc : chooseAgent s = some (.issuer c)) :
    step s = issueStep c s := by
  obtain ⟨hr, hx⟩ := hl
  simp [step, hr, terminated, hx, hc]

/-- R57: a command that decodes is taken from the port and its instruction executed. -/
theorem issueStep_of_decode {c : RawCommand} {i : Instr} (s : State) (hd : decodeCommand c = .ok i) :
    issueStep c s = exec i (takeCommand c s) := by
  simp [issueStep, hd]

end Sys2Proof.Machine

namespace Sys2Proof.Proofs

open Sys2Proof.Machine Sys2Proof.Safety

/-- Settles O12: the agent chosen issues its command, and the command decodes. -/
theorem stepRunsDecodedCommand : Obligations.StepRunsDecodedCommand := by
  intro s c i hl hc hd
  rw [step_of_issuer hl hc, issueStep_of_decode s hd]
  rfl

end Sys2Proof.Proofs

/-! ### Binary64 numbers: their bits, their units and rounding -/

namespace Sys2Proof.Machine

open Sys2Proof.Safety

/-- A number of units of 2^-1074 with at most 53 significant bits, of either sign: what a binary64 number of unbounded exponent
can be. -/
def OnGrid (z : ℤ) : Prop := ∃ (a : ℤ) (b : ℕ), |a| < 2 ^ 53 ∧ z = a * 2 ^ b

theorem onGrid_of_lt {a : ℕ} (ha : a < 2 ^ 53) (b : ℕ) : OnGrid (a * 2 ^ b : ℕ) :=
  ⟨a, b, by rw [Nat.abs_cast]; exact_mod_cast ha, by push_cast; rfl⟩

theorem OnGrid.neg {z : ℤ} (h : OnGrid z) : OnGrid (-z) := by
  obtain ⟨a, b, ha, rfl⟩ := h
  exact ⟨-a, b, by rwa [abs_neg], by ring⟩

/-- The significand `m` and exponent `e` of a binary64 number: a significand of fewer than 53 bits has the least exponent. The
significand 2^53 is what rounding up can give. -/
def IsScientific (m e : ℕ) : Prop := m ≤ 2 ^ 53 ∧ (e = 0 ∨ 2 ^ 52 ≤ m)

/-- The largest finite binary64 number, in units. -/
def maxUnits : ℕ := (2 ^ 53 - 1) * 2 ^ 2045

theorem onGrid_maxUnits : OnGrid maxUnits := onGrid_of_lt (by norm_num) 2045

theorem maxUnits_lt : maxUnits < 2 ^ 2098 := by
  rw [maxUnits, show 2098 = 53 + 2045 from rfl, pow_add]
  exact Nat.mul_lt_mul_of_pos_right (by norm_num) (by positivity)

/-! #### Rounding -/

/-- Rounding `m + r / d` to the nearest integer, ties to even: no integer `m + j` is nearer, and where one is as near the result is
even. -/
theorem roundHalfEven_nearest {m r d : ℕ} {up : ℕ} (hr : r < d)
    (hup : up = if 2 * r < d then 0 else if d < 2 * r then 1 else m % 2) (j : ℤ) :
    |(up * d - r : ℤ)| ≤ |j * d - r| ∧ (|(up * d - r : ℤ)| = |j * d - r| → j ≠ up → (m + up) % 2 = 0) := by
  have hj : j * d ≤ -d ∨ j = 0 ∨ j = 1 ∨ 2 * d ≤ j * (d : ℤ) := by
    rcases lt_or_ge j 0 with h | h
    · left; nlinarith
    rcases lt_or_ge j 2 with h' | h'
    · omega
    · right; right; right; nlinarith
  have hu : up = 0 ∧ 2 * r ≤ d ∧ (2 * r = d → m % 2 = 0) ∨ up = 1 ∧ d ≤ 2 * r ∧ (2 * r = d → m % 2 = 1) := by
    split_ifs at hup <;> omega
  rcases hu with ⟨rfl, hle, hm⟩ | ⟨rfl, hle, hm⟩ <;> rcases hj with hj | rfl | rfl | hj <;>
    simp only [Int.abs_eq_natAbs, Nat.cast_zero, Nat.cast_one] <;> omega

/-- The quotient in units of the last of 53 significant bits is a significand: below 2^53, and of 53 bits but for the least exponent. -/
theorem significand_bounds (num den : ℕ) :
    num / (den <<< (Nat.log2 (num / den) - 52)) < 2 ^ 53 ∧
      (Nat.log2 (num / den) - 52 = 0 ∨ 2 ^ 52 ≤ num / (den <<< (Nat.log2 (num / den) - 52))) := by
  rw [Nat.shiftLeft_eq, ← Nat.div_div_eq_div_mul]
  generalize num / den = k
  constructor
  · rw [Nat.div_lt_iff_lt_mul (by positivity), ← pow_add]
    refine lt_of_lt_of_le Nat.lt_log2_self (Nat.pow_le_pow_right (by norm_num) (by omega))
  · by_cases h : k.log2 - 52 = 0
    · exact .inl h
    · right
      rw [Nat.le_div_iff_mul_le (by positivity), ← pow_add]
      have hk : k ≠ 0 := by rintro rfl; simp at h
      exact (Nat.pow_le_pow_right (by norm_num) (by omega)).trans (Nat.log2_self_le hk)

/-- A number of 53 significant bits is a whole number of last places of a scientific number, or below it. -/
theorem OnGrid.dvd_or_lt {z : ℤ} (hz : OnGrid z) {m e : ℕ} (h : e = 0 ∨ 2 ^ 52 ≤ m) :
    (∃ k : ℤ, z = k * 2 ^ e) ∨ z < m * 2 ^ e := by
  obtain ⟨a, b, ha, rfl⟩ := hz
  rcases le_or_gt e b with hb | hb
  · left
    exact ⟨a * 2 ^ (b - e), by rw [mul_assoc, ← pow_add, Nat.sub_add_cancel hb]⟩
  · right
    have hm : (2 : ℤ) ^ 52 ≤ m := by exact_mod_cast h.resolve_left (by omega)
    have hpow : (2 : ℤ) * 2 ^ b ≤ 2 ^ e := by
      rw [← pow_succ']
      exact pow_le_pow_right₀ (by norm_num) hb
    have hb0 : (0 : ℤ) < 2 ^ b := by positivity
    calc a * 2 ^ b < 2 ^ 53 * 2 ^ b := mul_lt_mul_of_pos_right (abs_lt.mp ha).2 hb0
      _ = 2 ^ 52 * (2 * 2 ^ b) := by ring
      _ ≤ m * 2 ^ e := mul_le_mul hm hpow (by positivity) (by positivity)

/-- R17: what `roundUnits` computes: the quotient `m` and the rest `r` in last places, and whether `m` is rounded up. -/
theorem roundUnits_eq (num : ℕ) {den : ℕ} (hden : 0 < den) :
    ∃ m e r up : ℕ, roundUnits num den = (m + up) * 2 ^ e ∧ num = m * (den * 2 ^ e) + r ∧ r < den * 2 ^ e ∧
      m < 2 ^ 53 ∧ (e = 0 ∨ 2 ^ 52 ≤ m) ∧
      up = if 2 * r < den * 2 ^ e then 0 else if den * 2 ^ e < 2 * r then 1 else m % 2 := by
  obtain ⟨hlt, hge⟩ := significand_bounds num den
  unfold roundUnits
  generalize Nat.log2 (num / den) - 52 = e at hlt hge ⊢
  simp only [Nat.shiftLeft_eq] at hlt hge ⊢
  exact ⟨_, e, _, _, rfl, by rw [mul_comm]; exact (Nat.div_add_mod ..).symm, Nat.mod_lt _ (by positivity), hlt, hge, rfl⟩

/-- R17: `roundUnits` gives the number of 53 significant bits nearest to `num / den`, and where another is as near an even
significand. -/
theorem roundUnits_nearest (num : ℕ) {den : ℕ} (hden : 0 < den) :
    ∃ m e : ℕ, roundUnits num den = m * 2 ^ e ∧ IsScientific m e ∧
      ∀ z : ℤ, OnGrid z → |(m * 2 ^ e * den - num : ℤ)| ≤ |z * den - num| ∧
        (|(m * 2 ^ e * den - num : ℤ)| = |z * den - num| → z ≠ m * 2 ^ e → m % 2 = 0) := by
  obtain ⟨m, e, r, up, hround, hnum, hr, hlt, hge, hup⟩ := roundUnits_eq num hden
  have hup1 : up ≤ 1 := by split_ifs at hup <;> omega
  refine ⟨m + up, e, hround, ⟨by omega, by omega⟩, fun z hz => ?_⟩
  -- distances, counted from the quotient in units of `1 / den`
  have hdist (k : ℤ) : k * 2 ^ e * den - num = (k - m) * (den * 2 ^ e : ℕ) - r := by
    rw [hnum]; push_cast; ring
  have hself : ((m + up : ℕ) * 2 ^ e * den - num : ℤ) = up * (den * 2 ^ e : ℕ) - r := by
    rw [hdist]; push_cast; ring
  rw [hself]
  rcases hz.dvd_or_lt hge with ⟨k, rfl⟩ | hz
  · rw [hdist]
    obtain ⟨hle, htie⟩ := roundHalfEven_nearest hr hup (k - m)
    refine ⟨hle, fun heq hne => htie heq fun hkm => hne ?_⟩
    rw [show k = (m + up : ℕ) by omega]
  · have hfar : (r : ℤ) < |z * den - num| := by
      have hlt : z * den < m * 2 ^ e * den := mul_lt_mul_of_pos_right hz (by exact_mod_cast hden)
      have hquot := hdist m
      rw [sub_self, zero_mul] at hquot
      rw [lt_abs]
      right; linarith
    have hnear : |(up * (den * 2 ^ e : ℕ) - r : ℤ)| ≤ r := by
      simpa using (roundHalfEven_nearest hr hup 0).1
    exact ⟨by omega, fun heq => by omega⟩

/-- R17: rounding does not pass a number of 53 significant bits. -/
theorem roundUnits_le {num den b : ℕ} (hden : 0 < den) (hb : OnGrid b) (h : num ≤ b * den) : roundUnits num den ≤ b := by
  obtain ⟨m, e, hround, -, hnear⟩ := roundUnits_nearest num hden
  have hle := (hnear b hb).1
  have hbn : (num : ℤ) ≤ b * den := by exact_mod_cast h
  rw [abs_of_nonneg (by linarith : (0 : ℤ) ≤ b * den - num)] at hle
  have hmul : (m * 2 ^ e * den : ℤ) ≤ b * den := by linarith [le_abs_self (m * 2 ^ e * den - num : ℤ)]
  rw [hround]
  exact_mod_cast le_of_mul_le_mul_right hmul (by exact_mod_cast hden)

/-! #### Bits -/

/-- A significand of 53 bits loses its leading bit, and the exponent counts from 1. -/
theorem packUnits_of_normal {m : ℕ} (e : ℕ) (hge : 2 ^ 52 ≤ m) (hlt : m < 2 ^ 53) :
    packUnits (m * 2 ^ e) = BitVec.ofNat 64 (e * 2 ^ 52 + m) := by
  have hlog : (m * 2 ^ e).log2 - 52 = e := by
    have : (m * 2 ^ e).log2 = 52 + e := by
      rw [Nat.log2_eq_iff (by positivity), show 52 + e + 1 = 53 + e by omega, pow_add, pow_add]
      exact ⟨Nat.mul_le_mul_right _ hge, Nat.mul_lt_mul_of_pos_right hlt (by positivity)⟩
    omega
  have hbig : ¬ m * 2 ^ e < 2 ^ 52 := by
    have := Nat.le_mul_of_pos_right m (Nat.two_pow_pos e)
    omega
  simp only [packUnits, if_neg hbig, hlog, Nat.shiftRight_eq_div_pow, Nat.mul_div_cancel m (Nat.two_pow_pos e),
    Nat.shiftLeft_eq]
  exact congrArg (BitVec.ofNat 64) (by omega)

/-- The bits of a number are its exponent and its significand, the significand's leading bit carried into the exponent. -/
theorem packUnits_of_scientific {m e : ℕ} (h : IsScientific m e) :
    packUnits (m * 2 ^ e) = BitVec.ofNat 64 (e * 2 ^ 52 + m) := by
  obtain ⟨hle, he⟩ := h
  rcases lt_or_ge m (2 ^ 52) with hm | hm
  · obtain rfl : e = 0 := by omega
    rw [pow_zero, mul_one, packUnits, if_pos hm, zero_mul, zero_add]
  rcases hle.lt_or_eq with hlt | rfl
  · exact packUnits_of_normal e hm hlt
  · -- 2^53 is 2^52 with the next exponent
    rw [show 2 ^ 53 * 2 ^ e = 2 ^ 52 * 2 ^ (e + 1) by ring, packUnits_of_normal (e + 1) le_rfl (by norm_num)]
    exact congrArg (BitVec.ofNat 64) (by omega)

/-- The parity of a significand is the last bit of the number. -/
theorem packUnits_lsb {m e : ℕ} (h : IsScientific m e) (hm : m % 2 = 0) : (packUnits (m * 2 ^ e)).getLsbD 0 = false := by
  have heven : (e * 2 ^ 52 + m) % 2 = 0 := by omega
  rw [packUnits_of_scientific h, BitVec.getLsbD_ofNat, Nat.testBit_zero, heven]
  rfl

/-- The value of a number without sign, by its exponent field and its fraction field. -/
theorem fpValue_ofNat {n : ℕ} (h : n / 2 ^ 52 < 2047) : fpValue (BitVec.ofNat 64 n) =
    .finite false (if n / 2 ^ 52 = 0 then n % 2 ^ 52 else (2 ^ 52 + n % 2 ^ 52) * 2 ^ (n / 2 ^ 52 - 1)) := by
  have hexp : ((BitVec.ofNat 64 n).extractLsb' 52 11).toNat = n / 2 ^ 52 := by
    simp only [BitVec.extractLsb'_toNat, BitVec.toNat_ofNat, Nat.shiftRight_eq_div_pow]
    omega
  have hfrac : ((BitVec.ofNat 64 n).extractLsb' 0 52).toNat = n % 2 ^ 52 := by
    simp only [BitVec.extractLsb'_toNat, BitVec.toNat_ofNat, Nat.shiftRight_zero]
    omega
  have hsign : (BitVec.ofNat 64 n).msb = false := by
    simp only [BitVec.msb_eq_decide, BitVec.toNat_ofNat, decide_eq_false_iff_not]
    omega
  simp only [fpValue, hexp, hfrac, hsign, Nat.shiftLeft_eq, if_neg h.ne]
  split_ifs <;> rfl

theorem fpValue_packUnits_of_normal {m e : ℕ} (hge : 2 ^ 52 ≤ m) (hlt : m < 2 ^ 53) (hmax : m * 2 ^ e < 2 ^ 2098) :
    fpValue (packUnits (m * 2 ^ e)) = .finite false (m * 2 ^ e) := by
  have he : 52 + e < 2098 := by
    have hpow : 2 ^ (52 + e) < 2 ^ 2098 := by
      rw [pow_add]
      exact (Nat.mul_le_mul_right _ hge).trans_lt hmax
    exact (pow_lt_pow_iff_right₀ one_lt_two).mp hpow
  have hexp : (e * 2 ^ 52 + m) / 2 ^ 52 = e + 1 := by omega
  have hfrac : 2 ^ 52 + (e * 2 ^ 52 + m) % 2 ^ 52 = m := by omega
  rw [packUnits_of_normal e hge hlt, fpValue_ofNat (by omega), hfrac, hexp, if_neg e.succ_ne_zero, Nat.add_sub_cancel]

/-- The value of the packed bits is the number packed. -/
theorem fpValue_packUnits {m e : ℕ} (h : IsScientific m e) (hmax : m * 2 ^ e < 2 ^ 2098) :
    fpValue (packUnits (m * 2 ^ e)) = .finite false (m * 2 ^ e) := by
  obtain ⟨hle, he⟩ := h
  rcases lt_or_ge m (2 ^ 52) with hm | hm
  · obtain rfl : e = 0 := by omega
    rw [pow_zero, mul_one, packUnits, if_pos hm, fpValue_ofNat (by omega), if_pos (by omega), Nat.mod_eq_of_lt hm]
  rcases hle.lt_or_eq with hlt | rfl
  · exact fpValue_packUnits_of_normal hm hlt hmax
  · rw [show 2 ^ 53 * 2 ^ e = 2 ^ 52 * 2 ^ (e + 1) by ring] at hmax ⊢
    exact fpValue_packUnits_of_normal le_rfl (by norm_num) hmax

/-- The sign bit set leaves the other bits. -/
theorem fpValue_signed {x : Binary64} {u : ℕ} (neg : Bool) (h : fpValue x = .finite false u) :
    fpValue (signed neg x) = .finite neg u := by
  cases neg
  case false => exact h
  have hexp : (signed true x).extractLsb' 52 11 = x.extractLsb' 52 11 := by
    simp [signed, BitVec.extractLsb'_or]
  have hfrac : (signed true x).extractLsb' 0 52 = x.extractLsb' 0 52 := by
    simp [signed, BitVec.extractLsb'_or]
  have hsign : (signed true x).msb = true := by
    rw [signed, if_pos rfl, BitVec.msb_or, show (0x8000000000000000 : Binary64).msb = true from by decide, Bool.or_true]
  simp only [fpValue, hexp, hfrac, hsign] at h ⊢
  split_ifs at h ⊢ <;> simp_all

theorem signed_lsb (neg : Bool) (x : Binary64) : (signed neg x).getLsbD 0 = x.getLsbD 0 := by
  cases neg <;> simp [signed]

/-! #### The number a binary64 value stands for -/

theorem cast_oneUnits : (oneUnits : ℚ) = 2 ^ 1074 := by
  rw [oneUnits, Nat.cast_pow, Nat.cast_ofNat]

theorem oneUnits_pos : (0 : ℚ) < oneUnits := by
  rw [cast_oneUnits]; positivity

/-- A count of units with its sign. -/
def withSign (neg : Bool) (z : ℤ) : ℤ := if neg then -z else z

theorem withSign_withSign (neg : Bool) (z : ℤ) : withSign neg (withSign neg z) = z := by
  cases neg <;> simp [withSign]

theorem OnGrid.withSign {z : ℤ} (h : OnGrid z) (neg : Bool) : OnGrid (withSign neg z) := by
  cases neg
  · exact h
  · exact h.neg

theorem abs_withSign_mul_sub (neg : Bool) (z d n : ℤ) : |withSign neg z * d - withSign neg n| = |z * d - n| := by
  cases neg
  · rfl
  · rw [withSign, withSign, if_pos rfl, if_pos rfl, abs_sub_comm (z * d)]
    congr 1
    ring

/-- A signed rational as it is written with a sign test, and by its signed numerator. -/
theorem ite_neg_eq_withSign (neg : Bool) (n : ℤ) (d : ℚ) :
    (if neg then -((n : ℚ) / d) else n / d) = (withSign neg n : ℚ) / d := by
  cases neg
  · rfl
  · rw [withSign, if_pos rfl, if_pos rfl, Int.cast_neg, neg_div]

/-- IEEE-754's magnitude of a normal number, in units. -/
theorem normal_magnitude {e : ℕ} (m : ℕ) (he : e ≠ 0) :
    ((1 : ℚ) + (m : ℚ) / (2 : ℚ) ^ 52) * (2 : ℚ) ^ ((e : ℤ) - 1023) = (((2 ^ 52 + m) <<< (e - 1) : ℕ) : ℚ) / oneUnits := by
  obtain ⟨k, rfl⟩ := Nat.exists_eq_succ_of_ne_zero he
  have hexp : (2 : ℚ) ^ ((k.succ : ℤ) - 1023) = 2 ^ k / 2 ^ 1022 := by
    rw [show (k.succ : ℤ) - 1023 = (k : ℤ) - (1022 : ℕ) by push_cast; ring, zpow_sub₀ two_ne_zero, zpow_natCast,
      zpow_natCast]
  have hone : (oneUnits : ℚ) = 2 ^ 1022 * 2 ^ 52 := by rw [cast_oneUnits, ← pow_add]
  rw [hexp, hone, Nat.shiftLeft_eq, Nat.succ_sub_one]
  push_cast
  field_simp
  norm_num

/-- R17: the number of a finite value is its units of 2^-1074, with its sign. -/
theorem binary64Real_of_finite {x : Binary64} {neg : Bool} {u : ℕ} (h : fpValue x = .finite neg u) :
    binary64Real x = some ((withSign neg u : ℚ) / oneUnits) := by
  have hsub (m : ℕ) : (m : ℚ) * 2 ^ (-1074 : ℤ) = m / oneUnits := by
    rw [cast_oneUnits, zpow_neg, ← div_eq_mul_inv]; rfl
  rw [← ite_neg_eq_withSign]
  simp only [fpValue] at h
  split_ifs at h with hfin hm hsubnormal
  · obtain ⟨rfl, rfl⟩ := FpValue.finite.inj h
    simp only [binary64Real, if_neg hfin, if_pos hsubnormal, hsub, Int.cast_natCast]
  · obtain ⟨rfl, rfl⟩ := FpValue.finite.inj h
    rw [Int.cast_natCast, ← normal_magnitude _ hsubnormal]
    simp only [binary64Real, if_neg hfin, if_neg hsubnormal]

/-- R17: a value that stands for a number is finite. -/
theorem exists_finite_of_binary64Real {x : Binary64} {v : ℚ} (h : binary64Real x = some v) :
    ∃ neg u, fpValue x = .finite neg u ∧ v = (withSign neg u : ℚ) / oneUnits := by
  have hfin : (x.extractLsb' 52 11).toNat ≠ 2047 := fun hfin => by
    rw [binary64Real, if_pos hfin] at h
    cases h
  obtain ⟨neg, u, hx⟩ : ∃ neg u, fpValue x = .finite neg u := by
    simp only [fpValue, if_neg hfin]
    split_ifs <;> exact ⟨_, _, rfl⟩
  exact ⟨neg, u, hx, by rw [binary64Real_of_finite hx] at h; exact (Option.some.inj h).symm⟩

/-- R17: a finite value has 53 significant bits. -/
theorem onGrid_of_finite {x : Binary64} {neg : Bool} {u : ℕ} (h : fpValue x = .finite neg u) : OnGrid u := by
  have hm : (x.extractLsb' 0 52).toNat < 2 ^ 52 := (x.extractLsb' 0 52).isLt
  simp only [fpValue] at h
  split_ifs at h with hfin hzero hsubnormal
  · obtain ⟨-, rfl⟩ := FpValue.finite.inj h
    simpa using onGrid_of_lt (hm.trans (by norm_num)) 0
  · obtain ⟨-, rfl⟩ := FpValue.finite.inj h
    rw [Nat.shiftLeft_eq]
    exact onGrid_of_lt (by omega) _

/-- R17: a value that stands for a number not below 0 passes the model's sign check (-0 is 0), and the number is its units. -/
theorem finite_of_binary64Real_nonneg {x : Binary64} {q : ℚ} (h : binary64Real x = some q) (hq : 0 ≤ q) :
    ∃ neg u, fpValue x = .finite neg u ∧ atLeastZero neg u = true ∧ q = (u : ℚ) / oneUnits := by
  obtain ⟨neg, u, hx, rfl⟩ := exists_finite_of_binary64Real h
  refine ⟨neg, u, hx, ?_⟩
  rw [le_div_iff₀ oneUnits_pos, zero_mul, Int.cast_nonneg_iff] at hq
  cases neg
  case false => exact ⟨rfl, by rw [withSign, if_neg (by decide), Int.cast_natCast]⟩
  case true =>
    rw [withSign, if_pos rfl] at hq
    obtain rfl : u = 0 := by omega
    exact ⟨rfl, rfl⟩

/-! #### Nearest numbers -/

/-- The distance of a number of units from `num / den` units, scaled to whole numbers. -/
theorem abs_units_sub (z num : ℤ) {den : ℕ} (hden : 0 < den) {o : ℚ} (ho : 0 < o) :
    |(z : ℚ) / o - (num : ℚ) / den / o| = (|z * den - num| : ℤ) / (den * o) := by
  have hd : (0 : ℚ) < den := by exact_mod_cast hden
  have h : (z : ℚ) / o - (num : ℚ) / den / o = (z * den - num : ℤ) / (den * o) := by
    push_cast
    field_simp
  rw [h, abs_div, abs_of_pos (mul_pos hd ho), Int.cast_abs]

/-- R17: a value is nearest to `num / den` units when no number of 53 significant bits is nearer. -/
theorem isNearest_of_units {x : Binary64} {w num : ℤ} {den : ℕ} (hden : 0 < den)
    (hx : binary64Real x = some ((w : ℚ) / oneUnits))
    (hnear : ∀ z : ℤ, OnGrid z → |w * den - num| ≤ |z * den - num| ∧
      (|w * den - num| = |z * den - num| → z ≠ w → x.getLsbD 0 = false)) :
    IsNearest x ((num : ℚ) / den / oneUnits) := by
  have hpos : (0 : ℚ) < den * oneUnits := mul_pos (by exact_mod_cast hden) oneUnits_pos
  refine ⟨_, hx, fun y v hy => ?_⟩
  obtain ⟨neg, u, hyu, rfl⟩ := exists_finite_of_binary64Real hy
  obtain ⟨hle, htie⟩ := hnear _ ((onGrid_of_finite hyu).withSign neg)
  rw [abs_units_sub w num hden oneUnits_pos, abs_units_sub _ num hden oneUnits_pos, div_le_div_iff_of_pos_right hpos,
    div_left_inj' hpos.ne', Int.cast_le, Int.cast_inj]
  exact ⟨hle, fun heq hne => htie heq fun hzw => hne (by rw [hzw])⟩

/-- R17: the bits of a rounded number, with either sign, are those of the rounded number. -/
theorem fpValue_signed_roundUnits (neg : Bool) {num den : ℕ} (hden : 0 < den) (hmax : num ≤ maxUnits * den) :
    fpValue (signed neg (packUnits (roundUnits num den))) = .finite neg (roundUnits num den) := by
  have hfit := (roundUnits_le hden onGrid_maxUnits hmax).trans_lt maxUnits_lt
  obtain ⟨m, e, hround, hsci, -⟩ := roundUnits_nearest num hden
  rw [hround] at hfit ⊢
  exact fpValue_signed neg (fpValue_packUnits hsci hfit)

/-- R17: the bits of a rounded number, with either sign, are nearest to the exact number with that sign. -/
theorem isNearest_signed_roundUnits (neg : Bool) {num den : ℕ} (hden : 0 < den) (hmax : num ≤ maxUnits * den) :
    IsNearest (signed neg (packUnits (roundUnits num den))) ((withSign neg num : ℚ) / den / oneUnits) := by
  refine isNearest_of_units hden (binary64Real_of_finite (fpValue_signed_roundUnits neg hden hmax)) fun z hz => ?_
  obtain ⟨m, e, hround, hsci, hnear⟩ := roundUnits_nearest num hden
  obtain ⟨hle, htie⟩ := hnear _ (hz.withSign neg)
  have hdist := abs_withSign_mul_sub neg (withSign neg z) den num
  rw [withSign_withSign] at hdist
  rw [abs_withSign_mul_sub, hdist, hround, signed_lsb]
  push_cast
  refine ⟨hle, fun heq hne => packUnits_lsb hsci (htie heq fun h => hne ?_)⟩
  rw [← h, withSign_withSign]

/-! #### Decimal literals -/

/-- R78: a literal up to the largest finite number is the rounded number packed. -/
theorem nearestBinary64_of_le (neg : Bool) {m d : ℕ} (h : m * oneUnits ≤ maxUnits * 10 ^ d) :
    nearestBinary64 neg m d = signed neg (packUnits (roundUnits (m * oneUnits) (10 ^ d))) := by
  have hfit := (roundUnits_le (by positivity) onGrid_maxUnits h).trans_lt maxUnits_lt
  simp only [nearestBinary64, if_neg (not_le.mpr hfit)]

theorem maxUnits_div_oneUnits : (maxUnits : ℚ) / oneUnits = (2 ^ 53 - 1) * 2 ^ 971 := by
  have h : (2 : ℚ) ^ 2045 = 2 ^ 971 * 2 ^ 1074 := by rw [← pow_add]
  rw [cast_oneUnits, maxUnits, Nat.cast_mul, Nat.cast_pow, Nat.cast_ofNat, h, ← mul_assoc,
    mul_div_assoc, div_self (by positivity), mul_one]
  norm_num

/-- The bound of the literals, in units. -/
theorem units_le_of_le {m d : ℕ} (h : (m : ℚ) / 10 ^ d ≤ (2 ^ 53 - 1) * 2 ^ 971) : m * oneUnits ≤ maxUnits * 10 ^ d := by
  rw [← maxUnits_div_oneUnits, div_le_div_iff₀ (by positivity) oneUnits_pos] at h
  exact_mod_cast h

end Sys2Proof.Machine

namespace Sys2Proof.Proofs

open Sys2Proof.Machine Sys2Proof.Safety

/-- Settles O29: the literal is the rounded number of units, packed with its sign. -/
theorem decimalLiteralsAreNearest : Obligations.DecimalLiteralsAreNearest := by
  intro neg m d h
  have hle := units_le_of_le h
  have hnear := isNearest_signed_roundUnits neg (pow_pos (by norm_num) d) hle
  rw [nearestBinary64_of_le neg hle]
  have hq : (withSign neg (m * oneUnits : ℕ) : ℚ) / (10 ^ d : ℕ) / oneUnits =
      if neg then -((m : ℚ) / 10 ^ d) else (m : ℚ) / 10 ^ d := by
    rw [div_div, ← ite_neg_eq_withSign, Int.cast_natCast, Nat.cast_mul, mul_div_mul_right _ _ oneUnits_pos.ne',
      Nat.cast_pow, Nat.cast_ofNat]
  rwa [hq] at hnear

/-- Half a unit of the last digit: `round3` rounds `br * 10^d / 31` half up. -/
theorem round3_error (br : Level5) :
    |((round3 br).1 : ℚ) / 10 ^ (round3 br).2 - (br.toNat : ℚ) / 31| ≤ 1 / (2 * 10 ^ (round3 br).2) := by
  set d := (round3 br).2
  have hm : (round3 br).1 = (2 * (br.toNat * 10 ^ d) + 31) / 62 := rfl
  have hp : (0 : ℚ) < 10 ^ d := by positivity
  have hint : |(31 * (round3 br).1 - br.toNat * 10 ^ d : ℤ)| * 2 ≤ 31 := by
    rw [hm]
    push_cast
    rw [Int.abs_eq_natAbs]
    omega
  have hrat : |(31 * (round3 br).1 - br.toNat * 10 ^ d : ℚ)| * 2 ≤ 31 := by exact_mod_cast hint
  rw [div_sub_div _ _ hp.ne' (by norm_num), abs_div, abs_of_pos (by positivity : (0 : ℚ) < 10 ^ d * 31),
    div_le_div_iff₀ (by positivity) (by positivity)]
  rw [show ((round3 br).1 : ℚ) * 31 - 10 ^ d * br.toNat = 31 * (round3 br).1 - br.toNat * 10 ^ d by ring]
  nlinarith

theorem round3_le (br : Level5) : ((round3 br).1 : ℚ) / 10 ^ (round3 br).2 ≤ (2 ^ 53 - 1) * 2 ^ 971 := by
  have herr := (abs_le.mp (round3_error br)).2
  have hbr : (br.toNat : ℚ) / 31 ≤ 1 := by
    rw [div_le_one (by norm_num)]
    exact_mod_cast (by have := br.isLt; omega : br.toNat ≤ 31)
  have hlast : 1 / (2 * (10 : ℚ) ^ (round3 br).2) ≤ 1 := by
    rw [div_le_one (by positivity)]
    linarith [one_le_pow₀ (by norm_num : (1 : ℚ) ≤ 10) (n := (round3 br).2)]
  have hpow : (1 : ℚ) ≤ 2 ^ 971 := one_le_pow₀ (by norm_num)
  calc ((round3 br).1 : ℚ) / 10 ^ (round3 br).2 ≤ 2 := by linarith
    _ ≤ (2 ^ 53 - 1) * 1 := by norm_num
    _ ≤ (2 ^ 53 - 1) * 2 ^ 971 := mul_le_mul_of_nonneg_left hpow (by norm_num)

/-- R86: the fraction is the literal `round3` writes. -/
theorem brightnessFraction_eq (br : Level5) : brightnessFraction br = nearestBinary64 false (round3 br).1 (round3 br).2 := by
  rw [nearestBinary64_of_le false (units_le_of_le (round3_le br)), signed, if_neg (by decide), brightnessFraction]

/-- Settles O28: the fraction is the literal of `round3`, and `round3` errs by at most half a last digit. -/
theorem fractionIsNearestToRoundThree : Obligations.FractionIsNearestToRoundThree := by
  intro br
  refine ⟨?_, round3_error br⟩
  rw [brightnessFraction_eq]
  exact decimalLiteralsAreNearest false _ _ (round3_le br)

/-- R66: the rounded product of a fraction up to 1 is at most 31. -/
theorem times31Units_le {u : ℕ} (h : u ≤ oneUnits) : times31Units u ≤ 31 * oneUnits := by
  have hgrid : OnGrid (31 * oneUnits : ℕ) := by
    rw [oneUnits]
    exact onGrid_of_lt (by norm_num) 1074
  refine roundUnits_le Nat.one_pos hgrid ?_
  rw [mul_one]
  exact Nat.mul_le_mul_left 31 h

/-- R66: the mask of `br5` takes nothing away. -/
theorem br5_toNat {u : ℕ} (h : u ≤ oneUnits) : (br5 u).toNat = times31Units u / oneUnits := by
  have hle : times31Units u / oneUnits ≤ 31 := Nat.div_le_of_le_mul (by rw [mul_comm]; exact times31Units_le h)
  rw [br5, floorUnits, BitVec.toNat_ofNat, Nat.mod_eq_of_lt (by omega)]

/-- R64, R66: a fraction from 0 to 1 is accepted, as its level. -/
theorem chkBrReq_of_finite {x : Binary64} {neg : Bool} {u : ℕ} (hx : fpValue x = .finite neg u)
    (hneg : atLeastZero neg u = true) (hu : u ≤ oneUnits) : chkBrReq (.num x) = .ok (br5 u) := by
  simp only [chkBrReq, chkBrNum, hx]
  exact if_pos ⟨hneg, hu⟩

theorem mul_oneUnits_le_maxUnits : 31 * oneUnits ≤ maxUnits := by
  rw [oneUnits, maxUnits]
  gcongr <;> norm_num

/-- Settles O26: the level is the floor of the product rounded in units, and its packed bits are nearest to the exact product. -/
theorem brightnessIsFloorOfRoundedProduct : Obligations.BrightnessIsFloorOfRoundedProduct := by
  intro x q hx h0 h1
  obtain ⟨neg, u, hfin, hneg, rfl⟩ := finite_of_binary64Real_nonneg hx h0
  have hu : u ≤ oneUnits := by
    rw [div_le_one oneUnits_pos] at h1
    exact_mod_cast h1
  have hmax : 31 * u ≤ maxUnits * 1 := by
    have := mul_oneUnits_le_maxUnits
    omega
  have hnear := isNearest_signed_roundUnits false Nat.one_pos hmax
  have hreal := binary64Real_of_finite (fpValue_signed_roundUnits false Nat.one_pos hmax)
  refine ⟨br5 u, _, _, chkBrReq_of_finite hfin hneg hu, ?_, hreal, ?_⟩
  · rwa [withSign, if_neg (by decide), Int.cast_natCast, Nat.cast_mul, Nat.cast_one, div_one, Nat.cast_ofNat,
      mul_div_assoc] at hnear
  · rw [withSign, if_neg (by decide), Int.cast_natCast, Rat.floor_natCast_div_natCast, br5_toNat hu, times31Units]
    rfl

end Sys2Proof.Proofs

/-! ### The lines: what the three GPIO actions do to them, and what a step may do to a line -/

namespace Sys2Proof.Machine

open Sys2Proof.Safety

theorem gpioForm_of_isReport {e : Event} (h : e.isReport = true) : e.gpioForm = none := by
  cases e with
  | ret _ _ _ => rfl
  | err _ _ _ _ => rfl
  | _ => cases h

/-- R28: an event that is no GPIO action moves no handle. -/
theorem handleAfter_of_silent (l : Line) (h : HandleState) {e : Event} (he : e.gpioForm = none) :
    handleAfter l h e = h := by
  cases e with
  | acq _ _ => cases he
  | wr _ _ _ => cases he
  | rel _ _ => cases he
  | _ => rfl

/-- R29: an event that is no GPIO action moves no level. -/
theorem levelAfter_of_silent (l : Line) (v : Level) {e : Event} (he : e.gpioForm = none) :
    levelAfter l v e = v := by
  cases e with
  | acq _ _ => cases he
  | wr _ _ _ => cases he
  | rel _ _ => cases he
  | _ => rfl

theorem handleShown_append_silent (l : Line) (es : List Event) {fs : List Event} (hfs : ∀ f ∈ fs, f.gpioForm = none) :
    handleShown l (es ++ fs) = handleShown l es := by
  rw [handleShown, List.foldl_append,
    List.foldl_ext _ (fun h _ => h) _ fun h f hf => handleAfter_of_silent l h (hfs f hf), List.foldl_fixed, handleShown]

theorem levelShown_append_silent (l : Line) (es : List Event) {fs : List Event} (hfs : ∀ f ∈ fs, f.gpioForm = none) :
    levelShown l (es ++ fs) = levelShown l es := by
  rw [levelShown, List.foldl_append,
    List.foldl_ext _ (fun v _ => v) _ fun v f hf => levelAfter_of_silent l v (hfs f hf), List.foldl_fixed, levelShown]

@[simp] theorem handleShown_concat (l : Line) (es : List Event) (e : Event) :
    handleShown l (es ++ [e]) = handleAfter l (handleShown l es) e := by
  simp [handleShown]

@[simp] theorem levelShown_concat (l : Line) (es : List Event) (e : Event) :
    levelShown l (es ++ [e]) = levelAfter l (levelShown l es) e := by
  simp [levelShown]

theorem hs_setHs (l m : Line) (h : HandleState) (s : State) : (setHs l h s).hs m = if l = m then h else s.hs m := by
  cases l <;> cases m <;> rfl

@[simp] theorem lvl_setHs (l m : Line) (h : HandleState) (s : State) : (setHs l h s).lvl m = s.lvl m := by
  cases l <;> rfl

@[simp] theorem hs_setLvl (l m : Line) (v : Level) (s : State) : (setLvl l v s).hs m = s.hs m := by
  cases l <;> rfl

theorem lvl_setLvl (l m : Line) (v : Level) (s : State) : (setLvl l v s).lvl m = if l = m then v else s.lvl m := by
  cases l <;> cases m <;> rfl

@[simp] theorem hs_gpioAcquire (l m : Line) (s : State) : (gpioAcquire l s).hs m = s.hs m := rfl
@[simp] theorem lvl_gpioAcquire (l m : Line) (s : State) : (gpioAcquire l s).lvl m = s.lvl m := rfl
@[simp] theorem hs_gpioRelease (l m : Line) (s : State) : (gpioRelease l s).hs m = s.hs m := rfl
@[simp] theorem lvl_gpioRelease (l m : Line) (s : State) : (gpioRelease l s).lvl m = s.lvl m := rfl

/-! What an action leaves of each line is what its event says of it. -/

theorem acquireLine_hs (l m : Line) (s : State) :
    (acquireLine l s).hs m = handleAfter m (s.hs m) (.acq l (gpioAnswer s)) := by
  cases hg : gpioAnswer s <;> simp [acquireLine, hg, handleAfter, hs_setHs]

theorem acquireLine_lvl (l m : Line) (s : State) :
    (acquireLine l s).lvl m = levelAfter m (s.lvl m) (.acq l (gpioAnswer s)) := by
  cases hg : gpioAnswer s <;> simp [acquireLine, hg, levelAfter, lvl_setLvl]

theorem gpioWrite_hs (l m : Line) (v : Bool) (s : State) :
    (gpioWrite l v s).hs m = handleAfter m (s.hs m) (.wr l v (gpioAnswer s)) := by
  rw [gpioWrite, hs_setLvl]
  rfl

theorem gpioWrite_lvl (l m : Line) (v : Bool) (s : State) :
    (gpioWrite l v s).lvl m = levelAfter m (s.lvl m) (.wr l v (gpioAnswer s)) := by
  rw [gpioWrite, lvl_setLvl]
  rfl

theorem releaseLine_hs (l m : Line) (s : State) :
    (releaseLine l s).hs m = handleAfter m (s.hs m) (.rel l (gpioAnswer s)) := by
  rw [releaseLine, hs_setLvl, hs_setHs]
  rfl

theorem releaseLine_lvl (l m : Line) (s : State) :
    (releaseLine l s).lvl m = levelAfter m (s.lvl m) (.rel l (gpioAnswer s)) := by
  rw [releaseLine, lvl_setLvl, lvl_setHs]
  rfl

/-! What follows an acquire action and a successful write. -/

@[simp] theorem afterAcquire_ok (n : Nat) (l : Line) (next : Phase) (s : State) :
    afterAcquire n l next .ok s = { s with phase := next } := rfl

@[simp] theorem afterAcquire_fail (n : Nat) (l : Line) (next : Phase) (s : State) :
    afterAcquire n l next .fail s = endJob n (.err (.acquireFailed l)) s := rfl

/-- R103, R110: the two ways on from a pulse. -/
theorem countPulse_cases (total : Nat) (again done : Phase) (s : State) :
    (s.cnt + 1 = total ∧ countPulse total again done s = { s with cnt := s.cnt + 1, phase := done }) ∨
    (s.cnt + 1 ≠ total ∧ countPulse total again done s = { s with cnt := s.cnt + 1, phase := again }) := by
  by_cases h : s.cnt + 1 = total
  · exact .inl ⟨h, by simp [countPulse, h]⟩
  · exact .inr ⟨h, by simp [countPulse, h]⟩

/-- R107: the four ways on from a sent bit. -/
theorem advanceBit_cases (s : State) :
    (s.j + 1 < 8 ∧ advanceBit s = { s with sr := s.sr <<< 1, j := s.j + 1, phase := .fBitDat }) ∨
    (8 ≤ s.j + 1 ∧ s.k < 3 ∧
      advanceBit s = { s with k := s.k + 1, sr := byteOf s.w (s.k + 1), j := 0, phase := .fBitDat }) ∨
    (8 ≤ s.j + 1 ∧ 3 ≤ s.k ∧ s.p < 7 ∧
      advanceBit s = { s with sr := s.sr <<< 1, j := s.j + 1, p := s.p + 1, phase := .fPxLoad }) ∨
    (8 ≤ s.j + 1 ∧ 3 ≤ s.k ∧ 7 ≤ s.p ∧ advanceBit s = { s with sr := s.sr <<< 1, j := s.j + 1, phase := .fEofDat }) := by
  unfold advanceBit
  split
  · exact .inl ⟨‹_›, rfl⟩
  · split
    · exact .inr (.inl ⟨by omega, ‹_›, rfl⟩)
    · split
      · exact .inr (.inr (.inl ⟨by omega, by omega, ‹_›, rfl⟩))
      · exact .inr (.inr (.inr ⟨by omega, by omega, Nat.le_of_not_lt ‹_›, rfl⟩))

/-- R101 to R110: after a successful write only the phase and the counters of R32 move. -/
theorem WriteAt.next_eq {s : State} {l : Line} {v : Bool} {f : State → State} (h : WriteAt s l v f) (u : State) :
    ∃ ph cnt p k j sr, f u = { u with phase := ph, cnt := cnt, p := p, k := k, j := j, sr := sr } := by
  cases h with
  | bitLo _ => obtain ⟨_, h⟩ | ⟨_, _, h⟩ | ⟨_, _, _, h⟩ | ⟨_, _, _, h⟩ := advanceBit_cases u <;> exact ⟨_, _, _, _, _, _, h⟩
  | _ => exact ⟨_, _, _, _, _, _, rfl⟩

/-! What a step may do to a line. -/

/-- What is known of a line, and the trace. -/
structure LineView where
  handle : HandleState
  level : Level
  trace : List Event

/-- R28, R29, R38: line `l` in a state. -/
def lineView (l : Line) (s : State) : LineView := ⟨s.hs l, s.lvl l, s.trace⟩

/-- R142 to R144: an action of line `l` is issued only while its handle `h` allows it. -/
def actionAllowed (l : Line) (h : HandleState) : Event → Prop
  | .acq m _ => m = l → h = .unacq
  | .wr m _ _ => m = l → h = .acq
  | .rel m _ => m = l → h = .acq
  | _ => True

/-- R7, R51: a step issues at most one GPIO action, one the handles allow, and moves line `l` as that action's event says;
the other events it adds are no GPIO actions. -/
inductive LineMove (l : Line) (a b : LineView) : Prop
  | silent (es : List Event) : (∀ e ∈ es, e.gpioForm = none) → b.trace = a.trace ++ es →
      b.handle = a.handle → b.level = a.level → LineMove l a b
  | action (e : Event) (es : List Event) : (∀ f ∈ es, f.gpioForm = none) → b.trace = a.trace ++ [e] ++ es →
      actionAllowed l a.handle e → b.handle = handleAfter l a.handle e → b.level = levelAfter l a.level e → LineMove l a b

/-- A step that leaves line and trace alone. -/
theorem LineMove.refl (l : Line) (a : LineView) : LineMove l a a :=
  .silent [] (by simp) (by simp) rfl rfl

/-- A step that reports one event and leaves the line alone. -/
theorem lineMove_report {l : Line} {s t : State} (e : Event) (he : e.gpioForm = none) (ht : t.trace = s.trace ++ [e])
    (hh : t.hs l = s.hs l) (hv : t.lvl l = s.lvl l) : LineMove l (lineView l s) (lineView l t) :=
  .silent [e] (by simpa using he) ht hh hv

theorem CommandMove.lineMove {s t : State} (h : CommandMove s t) (l : Line) :
    LineMove l (lineView l s) (lineView l t) := by
  cases h with
  | refuse r => exact .refl _ _
  | report b c d e _ he => exact lineMove_report e (gpioForm_of_isReport he) rfl rfl rfl
  | submit job e _ he _ => exact lineMove_report e (gpioForm_of_isReport he) rfl rfl rfl
  | exit _ =>
    rw [exitSequence_eq]
    split <;> exact .refl _ _
  | exitAgain _ => exact .refl _ _

/-- R99, R100: what follows an acquire action moves no line; it may report the job's failure. -/
theorem lineMove_acquire {s : State} (n : Nat) {l : Line} (next : Phase) (hl : s.hs l = .unacq) (m : Line) :
    LineMove m (lineView m s) (lineView m (afterAcquire n l next (gpioAnswer s) (acquireLine l s))) := by
  have allowed : actionAllowed m (s.hs m) (.acq l (gpioAnswer s)) := fun e => e ▸ hl
  cases hg : gpioAnswer s with
  | ok =>
    exact .action (.acq l (gpioAnswer s)) [] (by simp) (by simp [lineView]) allowed
      (acquireLine_hs l m s) (acquireLine_lvl l m s)
  | fail =>
    exact .action (.acq l (gpioAnswer s)) [.done n (.err (.acquireFailed l))] (by simp [Event.gpioForm])
      (by simp [lineView]) allowed (acquireLine_hs l m s) (acquireLine_lvl l m s)

/-- R123, R124: a release phase releases its line if it is held. -/
theorem lineMove_release (l m : Line) (s : State) : LineMove m (lineView m s) (lineView m (releasePhase l s)) := by
  by_cases hl : s.hs l = .acq
  · rw [releasePhase_held hl]
    exact .action (.rel l (gpioAnswer s)) [] (by simp) (by simp [lineView]) (fun e => e ▸ hl)
      (releaseLine_hs l m s) (releaseLine_lvl l m s)
  · rw [releasePhase_unheld hl]
    exact .refl _ _

theorem EncMove.lineMove {s t : State} (h : EncMove s t) (m : Line) : LineMove m (lineView m s) (lineView m t) := by
  cases h with
  | acquireClk n o _ _ hl _ => exact lineMove_acquire n (l := .clk) .fAcqDat hl m
  | acquireDat n o _ _ hl => exact lineMove_acquire n (l := .dat) .fSofDat hl m
  | wrote n o l v f hw _ hl _ =>
    obtain ⟨_, _, _, _, _, _, hf⟩ := hw.next_eq (gpioWrite l v s)
    rw [hf]
    exact .action (.wr l v (gpioAnswer s)) [] (by simp) (by simp [lineView]) (fun e => e ▸ hl)
      (gpioWrite_hs l m v s) (gpioWrite_lvl l m v s)
  | writeFailed n o l v f _ _ hl _ =>
    exact .action (.wr l v (gpioAnswer s)) [.done n (.err (.writeFailed l))] (by simp [Event.gpioForm])
      (by simp [lineView]) (fun e => e ▸ hl) (gpioWrite_hs l m v s) (gpioWrite_lvl l m v s)
  | relClk n o _ _ => exact lineMove_release .clk m { s with rerr := none }
  | relDat n o _ _ => exact lineMove_release .dat m s
  | notAcquired n o _ _ _ => exact lineMove_report (.done n (.err .notAcquired)) rfl rfl rfl rfl
  | done n o _ _ => exact lineMove_report (.done n .ok) rfl rfl rfl rfl
  | relDone n o _ _ => exact lineMove_report (.done n (releaseStatus s.rerr)) rfl rfl rfl rfl
  | exitDone _ _ => exact lineMove_report .exited rfl rfl rfl rfl
  | _ => exact .refl _ _

/-- R7, R51: every step of every agent moves a line in one of these ways. -/
theorem StepMove.lineMove {s t : State} (h : StepMove s t) (l : Line) : LineMove l (lineView l s) (lineView l t) := by
  cases h with
  | stay => exact .refl _ _
  | command c t _ hm => exact hm.lineMove l
  | encoder t _ _ hm => exact hm.lineMove l

/-- R38: the events before stay. -/
theorem LineMove.trace_grows {l : Line} {a b : LineView} (h : LineMove l a b) : a.trace <+: b.trace := by
  cases h with
  | silent es _ ht _ _ => exact ⟨es, ht.symm⟩
  | action e es _ ht _ _ _ => exact ⟨[e] ++ es, by rw [ht, List.append_assoc]⟩

/-- R28, R29: a line that shows what the trace says still does after the move. -/
theorem LineMove.shown {l : Line} {a b : LineView} (h : LineMove l a b)
    (ha : a.handle = handleShown l a.trace ∧ a.level = levelShown l a.trace) :
    b.handle = handleShown l b.trace ∧ b.level = levelShown l b.trace := by
  obtain ⟨hh, hv⟩ := ha
  cases h with
  | silent es hes ht hh' hv' =>
    rw [ht, handleShown_append_silent l _ hes, levelShown_append_silent l _ hes]
    exact ⟨hh'.trans hh, hv'.trans hv⟩
  | action e es hes ht _ hh' hv' =>
    rw [ht, handleShown_append_silent l _ hes, levelShown_append_silent l _ hes, handleShown_concat, levelShown_concat,
      ← hh, ← hv]
    exact ⟨hh', hv'⟩

/-- R28: a handle goes only from `UNACQ` to `ACQ` and from `ACQ` to `REL`. -/
theorem LineMove.handle_legal {l : Line} {a b : LineView} (h : LineMove l a b) :
    b.handle = a.handle ∨ (a.handle = .unacq ∧ b.handle = .acq) ∨ (a.handle = .acq ∧ b.handle = .rel) := by
  cases h with
  | silent _ _ _ hh _ => exact .inl hh
  | action e _ _ _ allowed hh _ =>
    cases e with
    | acq m o =>
      by_cases hm : m = l ∧ o = .ok
      · exact .inr (.inl ⟨allowed hm.1, by simp [hh, handleAfter, hm]⟩)
      · exact .inl (by rw [hh, handleAfter, if_neg hm])
    | rel m o =>
      by_cases hm : m = l
      · exact .inr (.inr ⟨allowed hm, by simp [hh, handleAfter, hm]⟩)
      · exact .inl (by rw [hh, handleAfter, if_neg hm])
    | _ => exact .inl hh

/-- R29: an action the handle allows leaves a level that goes with the handle it leaves. -/
theorem lineFits_after {l : Line} {h : HandleState} {v : Level} {e : Event} (allowed : actionAllowed l h e)
    (hf : lineFits h v) : lineFits (handleAfter l h e) (levelAfter l v e) := by
  cases e with
  | acq m o =>
    by_cases hm : m = l ∧ o = .ok
    · simp [handleAfter, levelAfter, hm, lineFits]
    · simpa [handleAfter, levelAfter, hm] using hf
  | wr m b o =>
    by_cases hm : m = l
    · obtain rfl : h = .acq := allowed hm
      cases b <;> cases o <;> simp [handleAfter, levelAfter, hm, levelOf, lineFits]
    · simpa [handleAfter, levelAfter, hm] using hf
  | rel m o =>
    by_cases hm : m = l
    · cases o <;> simp [handleAfter, levelAfter, hm, lineFits]
    · simpa [handleAfter, levelAfter, hm] using hf
  | _ => exact hf

/-- R29: a line's level stays one that goes with its handle. -/
theorem LineMove.lineFits {l : Line} {a b : LineView} (h : LineMove l a b) (ha : lineFits a.handle a.level) :
    lineFits b.handle b.level := by
  cases h with
  | silent _ _ _ hh hv => rwa [hh, hv]
  | action e _ _ _ allowed hh hv =>
    rw [hh, hv]
    exact lineFits_after allowed ha

end Sys2Proof.Machine

namespace Sys2Proof.Proofs

open Sys2Proof.Machine Sys2Proof.Safety

/-- Settles O5: a step moves each line as the event of its one GPIO action says. -/
theorem stepKeepsTraceShowsLines : Obligations.StepKeepsTraceShowsLines :=
  fun _ _ hs h l => ((step_move h).lineMove l).shown (hs l)

/-- Settles O58: every move adds its events at the end. -/
theorem traceOnlyGrows : Obligations.TraceOnlyGrows :=
  fun _ _ h => ((step_move h).lineMove .clk).trace_grows

end Sys2Proof.Proofs

/-! ### The jobs: what a step may do to the jobs pending, the tickets and the exit sequence -/

namespace Sys2Proof.Machine

open Sys2Proof.Safety

@[simp] theorem doneTickets_append (es fs : List Event) : doneTickets (es ++ fs) = doneTickets es ++ doneTickets fs := by
  simp [doneTickets]

@[simp] theorem doneTickets_done (n : Nat) (st : Status) : doneTickets [.done n st] = [n] := rfl

/-- R38: only DONE reports a ticket complete. -/
theorem doneTickets_concat_of_isReport (es : List Event) {e : Event} (he : e.isReport = true) :
    doneTickets (es ++ [e]) = doneTickets es := by
  cases e with
  | ret _ _ _ => simp [doneTickets]
  | err _ _ _ _ => simp [doneTickets]
  | _ => cases he

/-- R34, R35, R36: what a step may do to the jobs pending, the tickets reported complete and the exit sequence. -/
inductive JobsMove (s t : State) : Prop
  /-- No job comes or ends; ENC may have made the head of the queue the current job. -/
  | keep : jobsPending t = jobsPending s → doneTickets t.trace = doneTickets s.trace → t.xs = s.xs →
      t.nextTicket = s.nextTicket → JobsMove s t
  /-- SHOW or RELEASE queues a job under the current ticket. -/
  | submit (job : Job) : job.ticket? = some s.nextTicket → jobsPending t = jobsPending s ++ [job] →
      doneTickets t.trace = doneTickets s.trace → s.xs = .notStarted → t.xs = .notStarted →
      t.nextTicket = s.nextTicket + 1 → JobsMove s t
  /-- EXIT queues its jobs under the next tickets, the exit marker behind them. -/
  | exit (jobs : List Job) : jobs.filterMap Job.ticket? = List.range' s.nextTicket jobs.length → .exitMark ∉ jobs →
      jobsPending t = jobsPending s ++ (jobs ++ [.exitMark]) → doneTickets t.trace = doneTickets s.trace →
      s.xs = .notStarted → t.xs = .running → t.nextTicket = s.nextTicket + jobs.length → JobsMove s t
  /-- The current job of ticket `n` completes. -/
  | complete (job : Job) (n : Nat) : job.ticket? = some n → jobsPending s = job :: jobsPending t →
      doneTickets t.trace = doneTickets s.trace ++ [n] → t.xs = s.xs → t.nextTicket = s.nextTicket → JobsMove s t
  /-- The exit marker executes. -/
  | ended : jobsPending s = .exitMark :: jobsPending t → doneTickets t.trace = doneTickets s.trace → t.xs = .done →
      t.nextTicket = s.nextTicket → JobsMove s t

theorem JobsMove.refl (s : State) : JobsMove s s := .keep rfl rfl rfl rfl

theorem CommandMove.jobsMove {s t : State} (h : CommandMove s t) : JobsMove s t := by
  cases h with
  | refuse r => exact .keep rfl rfl rfl rfl
  | report b c d e _ he => exact .keep rfl (doneTickets_concat_of_isReport _ he) rfl rfl
  | submit job e hx he hj =>
    exact .submit job hj (by simp [jobsPending]) (doneTickets_concat_of_isReport _ he) hx hx rfl
  | exit hx =>
    rw [exitSequence_eq]
    split
    · exact .exit [.flush s.nextTicket .exit, .release (s.nextTicket + 1) .exit] rfl (by simp) (by simp [jobsPending])
        rfl hx rfl rfl
    · exact .exit [.release s.nextTicket .exit] rfl (by simp) (by simp [jobsPending]) rfl hx rfl rfl
  | exitAgain _ => exact .refl s

/-- R111, R112, R125: the current job of ticket `n` completes; `u` is the state its last action left. -/
theorem jobsMove_endJob {s u : State} {job : Job} {n : Nat} (st : Status) (hj : job.ticket? = some n)
    (hc : s.cur = some job) (hq : u.queue = s.queue) (hd : doneTickets u.trace = doneTickets s.trace)
    (hx : u.xs = s.xs) (hn : u.nextTicket = s.nextTicket) : JobsMove s (endJob n st u) :=
  .complete job n hj (by simp [jobsPending, hc, hq]) (by simp [hd]) hx hn

theorem jobsMove_acquire {s : State} {n : Nat} {o : Origin} (l : Line) (next : Phase) (hc : s.cur = some (.flush n o)) :
    JobsMove s (afterAcquire n l next (gpioAnswer s) (acquireLine l s)) := by
  cases hg : gpioAnswer s with
  | ok =>
    rw [afterAcquire_ok]
    exact .keep (by simp [jobsPending]) (by simp [doneTickets]) (by simp) (by simp)
  | fail => exact jobsMove_endJob _ rfl hc (by simp) (by simp [doneTickets]) (by simp) (by simp)

@[simp] theorem doneTickets_releasePhase (l : Line) (s : State) :
    doneTickets (releasePhase l s).trace = doneTickets s.trace := by
  by_cases hl : s.hs l = .acq
  · simp [releasePhase_held hl, doneTickets]
  · rw [releasePhase_unheld hl]

/-- Every step of ENC moves the jobs in one of these ways. -/
theorem EncMove.jobsMove {s t : State} (h : EncMove s t) (hj : jobFits s.phase s.cur) : JobsMove s t := by
  cases h with
  | quiet _ _ => exact .refl s
  | dispatch job rest hp hq =>
    have hc : s.cur = none := by simpa [hp, jobFits] using hj
    exact .keep (by simp [jobsPending, hc, hq]) rfl rfl rfl
  | acquireClk n o _ hc _ _ => exact jobsMove_acquire .clk .fAcqDat hc
  | acquireDat n o _ hc _ => exact jobsMove_acquire .dat .fSofDat hc
  | wrote n o l v f hw _ _ _ =>
    obtain ⟨_, _, _, _, _, _, hf⟩ := hw.next_eq (gpioWrite l v s)
    rw [hf]
    exact .keep (by simp [jobsPending]) (by simp [doneTickets]) (by simp) (by simp)
  | writeFailed n o l v f _ hc _ _ => exact jobsMove_endJob _ rfl hc (by simp) (by simp [doneTickets]) (by simp) (by simp)
  | relClk n o _ _ => exact .keep (by simp [jobsPending]) (by simp) (by simp) (by simp)
  | relDat n o _ _ => exact .keep (by simp [jobsPending]) (by simp) (by simp) (by simp)
  | notAcquired n o _ hc _ => exact jobsMove_endJob _ rfl hc rfl rfl rfl rfl
  | done n o _ hc => exact jobsMove_endJob _ rfl hc rfl rfl rfl rfl
  | relDone n o _ hc => exact jobsMove_endJob _ rfl hc rfl rfl rfl rfl
  | exitDone _ hc => exact .ended (by simp [jobsPending, hc]) (by simp [doneTickets]) rfl rfl
  | _ => exact .keep rfl rfl rfl rfl

/-- R35, R53: each move keeps the ledger of tickets. -/
theorem JobsMove.ticketLedger {s t : State} (h : JobsMove s t) (hs : TicketLedger s) : TicketLedger t := by
  unfold TicketLedger pendingTickets at *
  cases h with
  | keep hp hd _ hn => rwa [hp, hd, hn]
  | submit job hj hp hd _ _ hn =>
    rw [hp, hd, hn, List.filterMap_append, ← List.append_assoc, hs, List.range_succ]
    simp [hj]
  | exit jobs hj _ hp hd _ _ hn =>
    have hrange : List.range s.nextTicket ++ List.range' s.nextTicket jobs.length =
        List.range (s.nextTicket + jobs.length) := by
      rw [List.range_eq_range', List.range_eq_range', ← List.range'_append_1, Nat.zero_add]
    have hmark : [Job.exitMark].filterMap Job.ticket? = [] := rfl
    rw [hp, hd, hn, List.filterMap_append, ← List.append_assoc, hs, List.filterMap_append, hj, hmark, List.append_nil,
      hrange]
  | complete job n hj hp hd _ hn =>
    rw [hd, hn, ← hs, hp]
    simp [hj]
  | ended hp hd _ hn =>
    rw [hd, hn, ← hs, hp]
    rfl

/-- R34, R35: only the exit marker has no ticket. -/
theorem ne_exitMark_of_ticket {job : Job} {n : Nat} (h : job.ticket? = some n) : job ≠ .exitMark := by
  rintro rfl
  cases h

/-- R36, R127, R129: each move keeps the exit marker behind every other job, as long as the exit sequence runs. -/
theorem JobsMove.exitFits {s t : State} (h : JobsMove s t) (hs : exitFits s) : exitFits t := by
  cases h with
  | keep hp _ hx _ => simpa only [Safety.exitFits, hp, hx] using hs
  | submit job hj hp _ hx hx' _ =>
    have hne := ne_exitMark_of_ticket hj
    simp only [Safety.exitFits, hx] at hs
    simp only [Safety.exitFits, hx', hp]
    simp [hs, hne.symm]
  | exit jobs _ hm hp _ hx hx' _ =>
    simp only [Safety.exitFits, hx] at hs
    simp only [Safety.exitFits, hx', hp]
    exact ⟨jobsPending s ++ jobs, by simp, by simp [hs, hm]⟩
  | complete job n hj hp _ hx _ =>
    have hne := ne_exitMark_of_ticket hj
    unfold Safety.exitFits at *
    rw [hp] at hs
    rw [hx]
    cases hxs : s.xs with
    | notStarted =>
      simp only [hxs] at hs ⊢
      exact fun hmem => hs (List.mem_cons_of_mem _ hmem)
    | running =>
      simp only [hxs] at hs ⊢
      obtain ⟨jobs, hjobs, hm⟩ := hs
      cases jobs with
      | nil => exact absurd (List.cons.inj hjobs).1 hne
      | cons j js => exact ⟨js, (List.cons.inj hjobs).2, fun hmem => hm (List.mem_cons_of_mem _ hmem)⟩
    | done => simp [hxs] at hs
  | ended hp _ hx _ =>
    unfold Safety.exitFits at *
    rw [hp] at hs
    rw [hx]
    cases hxs : s.xs with
    | notStarted => simp [hxs] at hs
    | running =>
      simp only [hxs] at hs ⊢
      obtain ⟨jobs, hjobs, hm⟩ := hs
      cases jobs with
      | nil => exact (List.cons.inj hjobs).2
      | cons j js => exact absurd (List.cons.inj hjobs).1 fun e => hm (e ▸ List.mem_cons_self)
    | done => simp [hxs] at hs

end Sys2Proof.Machine

namespace Sys2Proof.Proofs

open Sys2Proof.Machine Sys2Proof.Safety

/-- Settles O4: commands hand tickets out in order, and ENC completes the oldest pending one. -/
theorem stepKeepsTicketLedger : Obligations.StepKeepsTicketLedger := by
  intro s t hi hs h
  cases step_move h with
  | stay => exact hs
  | command c t _ hm => exact hm.jobsMove.ticketLedger hs
  | encoder t _ _ hm => exact (hm.jobsMove hi.job_fits).ticketLedger hs

end Sys2Proof.Proofs

/-! ### The invariant of the sequencer -/

namespace Sys2Proof.Machine

open Sys2Proof.Safety

/-- R31, R32, R46: a command leaves lines, phase and the encoder's registers alone; what it may write, and that its events are
reports. -/
theorem CommandMove.eq_with {s t : State} (h : CommandMove s t) :
    ∃ b c q n x r es d, (∀ e ∈ es, Event.isReport e = true) ∧
      t = { s with
        buf := b, clearOnExit := c, queue := q, nextTicket := n, xs := x, refused := r, trace := s.trace ++ es,
        draws := d } := by
  cases h with
  | refuse r => exact ⟨_, _, _, _, _, _, [], _, by simp, by rw [List.append_nil]⟩
  | report b c d e _ he => exact ⟨_, _, _, _, _, _, [e], _, by simpa using he, rfl⟩
  | submit job e _ he _ => exact ⟨_, _, _, _, _, _, [e], _, by simpa using he, rfl⟩
  | exit _ =>
    rw [exitSequence_eq]
    split <;> exact ⟨_, _, _, _, _, _, [], _, by simp, by rw [List.append_nil]⟩
  | exitAgain _ => exact ⟨_, _, _, _, _, _, [], _, by simp, by rw [List.append_nil]⟩

/-! #### R32: the counters stay in their ranges -/

/-- R32: the ranges of the encoder's counters. -/
structure RangesFit (s : State) : Prop where
  cnt_le : s.cnt ≤ 36
  p_le : s.p ≤ Config.pixels
  k_le : s.k ≤ 3
  j_le : s.j ≤ 8

theorem rangesFit_of_inv {s : State} (h : Inv s) : RangesFit s := ⟨h.cnt_le, h.p_le, h.k_le, h.j_le⟩

theorem RangesFit.congr {s t : State} (h : RangesFit s) (hcnt : t.cnt = s.cnt) (hp : t.p = s.p) (hk : t.k = s.k)
    (hj : t.j = s.j) : RangesFit t :=
  ⟨hcnt ▸ h.cnt_le, hp ▸ h.p_le, hk ▸ h.k_le, hj ▸ h.j_le⟩

theorem rangesFit_gpioWrite {s : State} (h : RangesFit s) (l : Line) (v : Bool) : RangesFit (gpioWrite l v s) :=
  h.congr (by simp) (by simp) (by simp) (by simp)

theorem rangesFit_acquire {s : State} (h : RangesFit s) (n : Nat) (l : Line) (next : Phase) :
    RangesFit (afterAcquire n l next (gpioAnswer s) (acquireLine l s)) := by
  have ha : RangesFit (acquireLine l s) := h.congr (by simp) (by simp) (by simp) (by simp)
  cases gpioAnswer s with
  | ok => exact ha.congr rfl rfl rfl rfl
  | fail => exact ha.congr rfl rfl rfl rfl

theorem rangesFit_releasePhase {s : State} (h : RangesFit s) (l : Line) : RangesFit (releasePhase l s) :=
  h.congr (by simp) (by simp) (by simp) (by simp)

theorem rangesFit_advanceBit {s : State} (h : RangesFit s) (hlt : s.j < 8) : RangesFit (advanceBit s) := by
  obtain ⟨hj, e⟩ | ⟨hj, hk, e⟩ | ⟨hj, hk, hp, e⟩ | ⟨hj, hk, hp, e⟩ := advanceBit_cases s <;> rw [e]
  · exact ⟨h.cnt_le, h.p_le, h.k_le, hj.le⟩
  · exact ⟨h.cnt_le, h.p_le, hk, Nat.zero_le _⟩
  · exact ⟨h.cnt_le, hp.trans (Nat.lt_succ_self 7), h.k_le, hlt⟩
  · exact ⟨h.cnt_le, h.p_le, h.k_le, hlt⟩

/-- R101 to R110: the counters after a successful write. -/
theorem WriteAt.rangesFit {s : State} {l : Line} {v : Bool} {f : State → State} (h : WriteAt s l v f)
    (hs : RangesFit s) (hf : phaseFits s) : RangesFit (f (gpioWrite l v s)) := by
  have hw := rangesFit_gpioWrite hs l v
  cases h with
  | sofDat hp => exact ⟨Nat.zero_le _, hw.p_le, hw.k_le, hw.j_le⟩
  | eofDat hp => exact ⟨Nat.zero_le _, hw.p_le, hw.k_le, hw.j_le⟩
  | sofLo hp =>
    simp only [phaseFits, hp] at hf
    obtain ⟨-, hcnt, -⟩ := hf
    exact ⟨hcnt.trans (by decide), hw.p_le, hw.k_le, hw.j_le⟩
  | eofLo hp =>
    simp only [phaseFits, hp] at hf
    obtain ⟨-, hcnt, -⟩ := hf
    exact ⟨hcnt, hw.p_le, hw.k_le, hw.j_le⟩
  | bitLo hp =>
    simp only [phaseFits, hp] at hf
    obtain ⟨-, ⟨-, -, -, hj, -⟩, -⟩ := hf
    exact rangesFit_advanceBit hw (by simpa using hj)
  | _ => exact hw.congr rfl rfl rfl rfl

theorem EncMove.rangesFit {s t : State} (h : EncMove s t) (hs : RangesFit s) (hf : phaseFits s) : RangesFit t := by
  cases h with
  | start n o _ _ => exact ⟨hs.cnt_le, Nat.zero_le _, hs.k_le, hs.j_le⟩
  | load n o q _ _ _ => exact ⟨hs.cnt_le, hs.p_le, Nat.zero_le _, Nat.zero_le _⟩
  | acquireClk n o _ _ _ _ => exact rangesFit_acquire hs n .clk _
  | acquireDat n o _ _ _ => exact rangesFit_acquire hs n .dat _
  | wrote n o l v f hw _ _ _ => exact hw.rangesFit hs hf
  | writeFailed n o l v f _ _ _ _ => exact (rangesFit_gpioWrite hs l v).congr rfl rfl rfl rfl
  | relClk n o _ _ =>
    have hr : RangesFit { s with rerr := none } := hs.congr rfl rfl rfl rfl
    exact (rangesFit_releasePhase hr .clk).congr rfl rfl rfl rfl
  | relDat n o _ _ => exact (rangesFit_releasePhase hs .dat).congr rfl rfl rfl rfl
  | _ => exact hs.congr rfl rfl rfl rfl

/-! #### R31, R34: the current job stays the one its phase belongs to -/

theorem jobFits_firstPhase (job : Job) : jobFits (firstPhase job) (some job) := by
  cases job with
  | flush t o => exact ⟨t, o, rfl⟩
  | release t o => exact ⟨t, o, rfl⟩
  | exitMark => rfl

/-- R101 to R110: a successful write leaves the flush job in a flush phase. -/
theorem WriteAt.jobFits {s u : State} {l : Line} {v : Bool} {f : State → State} {n : Nat} {o : Origin}
    (h : WriteAt s l v f) (hc : u.cur = some (.flush n o)) : jobFits (f u).phase (f u).cur := by
  cases h with
  | sofLo _ => obtain ⟨-, e⟩ | ⟨-, e⟩ := countPulse_cases Config.sofPulses .fSofHi .fPxLoad u <;> rw [e] <;> exact ⟨n, o, hc⟩
  | eofLo _ => obtain ⟨-, e⟩ | ⟨-, e⟩ := countPulse_cases Config.eofPulses .fEofHi .fDone u <;> rw [e] <;> exact ⟨n, o, hc⟩
  | bitLo _ =>
    obtain ⟨-, e⟩ | ⟨-, -, e⟩ | ⟨-, -, -, e⟩ | ⟨-, -, -, e⟩ := advanceBit_cases u <;> rw [e] <;> exact ⟨n, o, hc⟩
  | _ => exact ⟨n, o, hc⟩

theorem EncMove.jobFits {s t : State} (h : EncMove s t) (hs : jobFits s.phase s.cur) : jobFits t.phase t.cur := by
  cases h with
  | quiet _ _ => exact hs
  | dispatch job rest _ _ => exact jobFits_firstPhase job
  | start n o _ hc => exact ⟨n, o, hc⟩
  | acquireClk n o _ hc _ _ =>
    cases hg : gpioAnswer s with
    | ok => exact ⟨n, o, by simpa using hc⟩
    | fail => rfl
  | acquireDat n o _ hc _ =>
    cases hg : gpioAnswer s with
    | ok => exact ⟨n, o, by simpa using hc⟩
    | fail => rfl
  | reuseClk n o _ hc _ _ => exact ⟨n, o, hc⟩
  | reuseDat n o _ hc _ => exact ⟨n, o, hc⟩
  | load n o q _ hc _ => exact ⟨n, o, hc⟩
  | wrote n o l v f hw hc _ _ => exact hw.jobFits (by simpa using hc)
  | relClk n o _ hc => exact ⟨n, o, by simpa using hc⟩
  | relDat n o _ hc => exact ⟨n, o, by simpa using hc⟩
  | _ => rfl

/-! #### R98 to R111, R123 to R125: each phase's facts -/

theorem gpioWrite_clk_lvlClk {s : State} {v : Bool} (h : gpioAnswer s = .ok) : (gpioWrite .clk v s).lvlClk = levelOf v := by
  simp [gpioWrite, h]

theorem gpioWrite_dat_lvlDat {s : State} {v : Bool} (h : gpioAnswer s = .ok) : (gpioWrite .dat v s).lvlDat = levelOf v := by
  simp [gpioWrite, h]

@[simp] theorem gpioWrite_clk_lvlDat (s : State) (v : Bool) : (gpioWrite .clk v s).lvlDat = s.lvlDat := rfl

theorem bothHeld_gpioWrite {s : State} (h : bothHeld s) (l : Line) (v : Bool) : bothHeld (gpioWrite l v s) := by
  simpa [bothHeld] using h

theorem wordFits_gpioWrite {s : State} (h : wordFits s) (l : Line) (v : Bool) : wordFits (gpioWrite l v s) := by
  simpa [wordFits] using h

/-- R104: the word just loaded, nothing of it sent. -/
theorem wordFits_loadWord {s : State} {q : Pixel} (h : frameRecord Config.frameLatch s = some q) :
    wordFits (loadWord q s) := by
  obtain ⟨hp, rfl⟩ := Vector.getElem?_eq_some_iff.mp h
  exact ⟨hp, rfl, Nat.zero_le _, Nat.succ_pos 7, (BitVec.shiftLeft_zero _).symm⟩

/-- R107: what is left to send after a bit. -/
theorem phaseFits_advanceBit {s : State} (hb : bothHeld s) (hw : wordFits s) : phaseFits (advanceBit s) := by
  obtain ⟨hp, hword, hk, hj, hsr⟩ := hw
  obtain ⟨hj', e⟩ | ⟨hj', hk', e⟩ | ⟨hj', hk', hp', e⟩ | ⟨hj', hk', hp', e⟩ := advanceBit_cases s <;> rw [e]
  · refine ⟨hb, hp, hword, hk, hj', ?_⟩
    show s.sr <<< 1 = _
    rw [hsr, ← BitVec.shiftLeft_add]
  · exact ⟨hb, hp, hword, hk', Nat.succ_pos 7, (BitVec.shiftLeft_zero _).symm⟩
  · exact ⟨hb, Nat.succ_lt_succ hp'⟩
  · exact hb

/-- R101 to R110: what the next phase knows after a successful write. -/
theorem WriteAt.phaseFits {s : State} {l : Line} {v : Bool} {f : State → State} (h : WriteAt s l v f)
    (hg : gpioAnswer s = .ok) (hs : phaseFits s) : phaseFits (f (gpioWrite l v s)) := by
  have held (hb : bothHeld s) := bothHeld_gpioWrite hb l v
  have word (hw : wordFits s) := wordFits_gpioWrite hw l v
  cases h with
  | sofDat hp =>
    simp only [Safety.phaseFits, hp] at hs
    obtain ⟨hb, hp0⟩ := hs
    exact ⟨held hb, Nat.succ_pos 31, gpioWrite_dat_lvlDat hg, hp0⟩
  | sofHi hp =>
    simp only [Safety.phaseFits, hp] at hs
    obtain ⟨hb, hcnt, hdat, hp0⟩ := hs
    exact ⟨held hb, hcnt, hdat, gpioWrite_clk_lvlClk hg, hp0⟩
  | sofLo hp =>
    simp only [Safety.phaseFits, hp] at hs
    obtain ⟨hb, hcnt, hdat, -, hp0⟩ := hs
    obtain ⟨-, e⟩ | ⟨hne, e⟩ := countPulse_cases Config.sofPulses .fSofHi .fPxLoad (gpioWrite .clk false s) <;> rw [e]
    · exact ⟨held hb, by simp [hp0]⟩
    · exact ⟨held hb, lt_of_le_of_ne hcnt hne, hdat, hp0⟩
  | bitDat hp =>
    simp only [Safety.phaseFits, hp] at hs
    obtain ⟨hb, hw⟩ := hs
    exact ⟨held hb, word hw, gpioWrite_dat_lvlDat hg⟩
  | bitHi hp =>
    simp only [Safety.phaseFits, hp] at hs
    obtain ⟨hb, hw, hdat⟩ := hs
    exact ⟨held hb, word hw, hdat, gpioWrite_clk_lvlClk hg⟩
  | bitLo hp =>
    simp only [Safety.phaseFits, hp] at hs
    obtain ⟨hb, hw, -⟩ := hs
    exact phaseFits_advanceBit (held hb) (word hw)
  | eofDat hp =>
    simp only [Safety.phaseFits, hp] at hs
    exact ⟨held hs, Nat.succ_pos 35, gpioWrite_dat_lvlDat hg⟩
  | eofHi hp =>
    simp only [Safety.phaseFits, hp] at hs
    obtain ⟨hb, hcnt, hdat⟩ := hs
    exact ⟨held hb, hcnt, hdat, gpioWrite_clk_lvlClk hg⟩
  | eofLo hp =>
    simp only [Safety.phaseFits, hp] at hs
    obtain ⟨hb, hcnt, hdat, -⟩ := hs
    obtain ⟨-, e⟩ | ⟨hne, e⟩ := countPulse_cases Config.eofPulses .fEofHi .fDone (gpioWrite .clk false s) <;> rw [e]
    · exact ⟨held hb, hdat, gpioWrite_clk_lvlClk hg⟩
    · exact ⟨held hb, lt_of_le_of_ne hcnt hne, hdat⟩

/-- R123, R124: after its release phase a line is not held. -/
theorem releasePhase_hs_ne_acq (l : Line) (s : State) : (releasePhase l s).hs l ≠ .acq := by
  by_cases hl : s.hs l = .acq
  · rw [releasePhase_held hl]
    show (releaseLine l s).hs l ≠ .acq
    simp [releaseLine_hs, handleAfter]
  · rwa [releasePhase_unheld hl]

theorem releasePhase_hs_of_ne {l m : Line} {s : State} (h : l ≠ m) : (releasePhase l s).hs m = s.hs m := by
  by_cases hl : s.hs l = .acq
  · rw [releasePhase_held hl]
    show (releaseLine l s).hs m = s.hs m
    simp [releaseLine_hs, handleAfter, h]
  · rw [releasePhase_unheld hl]

/-- R123: with none recorded before, a failed release records its own line. -/
theorem releasePhase_rerr (l : Line) {s : State} (h : s.rerr = none) :
    (releasePhase l s).rerr = none ∨ (releasePhase l s).rerr = some l := by
  by_cases hl : s.hs l = .acq
  · cases hg : gpioAnswer s <;> simp [releasePhase_held hl, rerrAfter, hg, h]
  · exact .inl (by rw [releasePhase_unheld hl, h])

theorem EncMove.phaseFits {s t : State} (h : EncMove s t) (hs : phaseFits s) : phaseFits t := by
  cases h with
  | quiet _ _ => exact hs
  | dispatch job rest _ _ => cases job <;> trivial
  | start n o _ _ => exact rfl
  | acquireClk n o hp _ _ hdat =>
    simp only [Safety.phaseFits, hp] at hs
    cases hg : gpioAnswer s with
    | ok => exact ⟨by simp [acquireLine, hg], by simpa [acquireLine, hg] using hdat, by simpa using hs⟩
    | fail => trivial
  | acquireDat n o hp _ _ =>
    simp only [Safety.phaseFits, hp] at hs
    obtain ⟨hclk, -, hp0⟩ := hs
    cases hg : gpioAnswer s with
    | ok => exact ⟨⟨by simpa [acquireLine, hg] using hclk, by simp [acquireLine, hg]⟩, by simpa using hp0⟩
    | fail => trivial
  | reuseClk n o hp _ hclk hdat =>
    simp only [Safety.phaseFits, hp] at hs
    exact ⟨hclk, hdat, hs⟩
  | reuseDat n o hp _ hdat =>
    simp only [Safety.phaseFits, hp] at hs
    obtain ⟨hclk, hrel, hp0⟩ := hs
    have hacq : s.hsDat = .acq := by cases hh : s.hsDat <;> simp_all
    exact ⟨⟨hclk, hacq⟩, hp0⟩
  | load n o q hp _ hq =>
    simp only [Safety.phaseFits, hp] at hs
    obtain ⟨hb, -⟩ := hs
    exact ⟨hb, wordFits_loadWord hq⟩
  | wrote n o l v f hw _ _ hg => exact hw.phaseFits hg hs
  | relClk n o _ _ => exact ⟨releasePhase_hs_ne_acq .clk _, releasePhase_rerr .clk rfl⟩
  | relDat n o hp _ =>
    simp only [Safety.phaseFits, hp] at hs
    obtain ⟨hclk, -⟩ := hs
    have hkept : (releasePhase .dat s).hs .clk = s.hs .clk := releasePhase_hs_of_ne (by decide)
    exact ⟨fun e => hclk (hkept.symm.trans e), releasePhase_hs_ne_acq .dat s⟩
  | _ => trivial

/-! #### All parts together -/

/-- R28 to R36: every step of ENC keeps the invariant. -/
theorem EncMove.inv {s t : State} (h : EncMove s t) (hi : Inv s) : Inv t := by
  obtain ⟨hcnt, hp, hk, hj⟩ := h.rangesFit (rangesFit_of_inv hi) hi.phase_fits
  exact {
    cnt_le := hcnt
    p_le := hp
    k_le := hk
    j_le := hj
    clk_fits := (h.lineMove .clk).lineFits hi.clk_fits
    dat_fits := (h.lineMove .dat).lineFits hi.dat_fits
    job_fits := h.jobFits hi.job_fits
    phase_fits := h.phaseFits hi.phase_fits
    exit_fits := (h.jobsMove hi.job_fits).exitFits hi.exit_fits }

/-- R36, R46: a command moves the jobs pending and the exit sequence only. -/
theorem CommandMove.inv {s t : State} (h : CommandMove s t) (hi : Inv s) : Inv t := by
  have hexit := h.jobsMove.exitFits hi.exit_fits
  obtain ⟨_, _, _, _, _, _, _, _, -, rfl⟩ := h.eq_with
  obtain ⟨hcnt, hp, hk, hj, hclk, hdat, hjob, hphase, -⟩ := hi
  exact ⟨hcnt, hp, hk, hj, hclk, hdat, hjob, hphase, hexit⟩

/-- The port and the turn are no part of the invariant. -/
theorem inv_takeCommand {s : State} (hi : Inv s) (c : RawCommand) : Inv (takeCommand c s) := by
  obtain ⟨hcnt, hp, hk, hj, hclk, hdat, hjob, hphase, hexit⟩ := hi
  exact ⟨hcnt, hp, hk, hj, hclk, hdat, hjob, hphase, hexit⟩

theorem inv_advanceTurn {s : State} (hi : Inv s) : Inv (advanceTurn s) := by
  obtain ⟨hcnt, hp, hk, hj, hclk, hdat, hjob, hphase, hexit⟩ := hi
  exact ⟨hcnt, hp, hk, hj, hclk, hdat, hjob, hphase, hexit⟩

end Sys2Proof.Machine

namespace Sys2Proof.Proofs

open Sys2Proof.Machine Sys2Proof.Safety

/-- Settles O3: a command touches only the jobs pending and the exit sequence; for ENC each part of the invariant is kept by
each move. -/
theorem stepKeepsInvariant : Obligations.StepKeepsInvariant := by
  intro s t hi h
  cases step_move h with
  | stay => exact hi
  | command c t _ hm => exact hm.inv (inv_takeCommand hi c)
  | encoder t _ _ hm => exact hm.inv (inv_advanceTurn hi)

end Sys2Proof.Proofs

/-! ### What commands and ENC keep apart, and the phases ENC goes through -/

namespace Sys2Proof.Machine

open Sys2Proof.Safety

/-- R38: a report is no GPIO event. -/
theorem gpioEvents_append_reports (es : List Event) {fs : List Event} (h : ∀ f ∈ fs, f.isReport = true) :
    gpioEvents (es ++ fs) = gpioEvents es := by
  have hfs : gpioEvents fs = [] :=
    List.filter_eq_nil_iff.mpr fun f hf => by simp [gpioForm_of_isReport (h f hf)]
  rw [gpioEvents, List.filter_append]
  exact (congrArg (gpioEvents es ++ ·) hfs).trans (List.append_nil _)

/-- R46, R114: ENC writes neither the buffer nor what the commands own. -/
theorem EncMove.keeps_commands {s t : State} (h : EncMove s t) :
    t.buf = s.buf ∧ t.clearOnExit = s.clearOnExit ∧ t.nextTicket = s.nextTicket ∧ t.refused = s.refused ∧
      t.port = s.port := by
  cases h with
  | acquireClk n o _ _ _ _ => cases hg : gpioAnswer s <;> simp
  | acquireDat n o _ _ _ => cases hg : gpioAnswer s <;> simp
  | wrote n o l v f hw _ _ _ =>
    obtain ⟨_, _, _, _, _, _, hf⟩ := hw.next_eq (gpioWrite l v s)
    simp [hf]
  | writeFailed n o l v f _ _ _ _ => simp
  | relClk n o _ _ => simp
  | relDat n o _ _ => simp
  | _ => exact ⟨rfl, rfl, rfl, rfl, rfl⟩

/-- R118: a successful write leads on as the transition summary says. -/
theorem WriteAt.phase_mem {s : State} {l : Line} {v : Bool} {f : State → State} (h : WriteAt s l v f) (u : State) :
    (f u).phase ∈ phaseSuccessors s.phase := by
  cases h with
  | sofDat hp => simp [hp, phaseSuccessors, startPulses]
  | sofHi hp => simp [hp, phaseSuccessors]
  | sofLo hp =>
    obtain ⟨-, e⟩ | ⟨-, e⟩ := countPulse_cases Config.sofPulses .fSofHi .fPxLoad u <;> simp [hp, phaseSuccessors, e]
  | bitDat hp => simp [hp, phaseSuccessors]
  | bitHi hp => simp [hp, phaseSuccessors]
  | bitLo hp =>
    obtain ⟨-, e⟩ | ⟨-, -, e⟩ | ⟨-, -, -, e⟩ | ⟨-, -, -, e⟩ := advanceBit_cases u <;> simp [hp, phaseSuccessors, e]
  | eofDat hp => simp [hp, phaseSuccessors, startPulses]
  | eofHi hp => simp [hp, phaseSuccessors]
  | eofLo hp =>
    obtain ⟨-, e⟩ | ⟨-, e⟩ := countPulse_cases Config.eofPulses .fEofHi .fDone u <;> simp [hp, phaseSuccessors, e]

/-- R112, R118: from every write phase the job may end. -/
theorem WriteAt.idle_mem {s : State} {l : Line} {v : Bool} {f : State → State} (h : WriteAt s l v f) :
    .idle ∈ phaseSuccessors s.phase := by
  cases h with
  | _ hp => simp [hp, phaseSuccessors]

/-- R95: a job starts in one of the three first phases. -/
theorem firstPhase_mem (job : Job) : firstPhase job ∈ phaseSuccessors .idle := by
  cases job <;> simp [firstPhase, phaseSuccessors]

/-- R118: every step of a busy ENC follows the transition summary. -/
theorem EncMove.phase_mem {s t : State} (h : EncMove s t) (hb : s.phase ≠ .idle ∨ s.queue ≠ []) :
    t.phase ∈ phaseSuccessors s.phase := by
  cases h with
  | quiet hp hq => exact absurd hb (by simp [hp, hq])
  | dispatch job rest hp _ => rw [hp]; exact firstPhase_mem job
  | acquireClk n o hp _ _ _ => cases hg : gpioAnswer s <;> simp [hp, phaseSuccessors]
  | acquireDat n o hp _ _ => cases hg : gpioAnswer s <;> simp [hp, phaseSuccessors]
  | wrote n o l v f hw _ _ _ => exact hw.phase_mem _
  | writeFailed n o l v f hw _ _ _ => exact hw.idle_mem
  | start n o hp _ => simp [hp, phaseSuccessors]
  | notAcquired n o hp _ _ => simp [hp, phaseSuccessors]
  | reuseClk n o hp _ _ _ => simp [hp, phaseSuccessors]
  | reuseDat n o hp _ _ => simp [hp, phaseSuccessors]
  | load n o q hp _ _ => simp [hp, phaseSuccessors, loadWord]
  | done n o hp _ => simp [hp, phaseSuccessors]
  | relClk n o hp _ => simp [hp, phaseSuccessors]
  | relDat n o hp _ => simp [hp, phaseSuccessors]
  | relDone n o hp _ => simp [hp, phaseSuccessors]
  | exitDone hp _ => simp [hp, phaseSuccessors]

end Sys2Proof.Machine

namespace Sys2Proof.Proofs

open Sys2Proof.Machine Sys2Proof.Safety

/-- Settles O57: what a command may write is none of the encoder's, and what ENC may write is none of the commands'. -/
theorem commandsAndEncoderKeepApart : Obligations.CommandsAndEncoderKeepApart := by
  refine ⟨fun i src s t hi h => ?_, fun s t h => (encStep_move h).keeps_commands⟩
  obtain ⟨_, _, _, _, _, _, _, _, hes, rfl⟩ := (exec_command_move hi h).eq_with
  exact ⟨rfl, rfl, rfl, rfl, rfl, rfl, rfl, rfl, rfl, rfl, rfl, rfl, rfl, rfl, rfl, gpioEvents_append_reports _ hes⟩

/-- Settles O59: by the moves of ENC, and the one GPIO action a step may issue. -/
theorem phasesAndHandlesMoveLegally : Obligations.PhasesAndHandlesMoveLegally :=
  ⟨fun _ _ hb h => (encStep_move h).phase_mem hb, fun _ _ l h => ((step_move h).lineMove l).handle_legal⟩

end Sys2Proof.Proofs

/-! ### Which agent steps -/

namespace Sys2Proof.Machine

open Sys2Proof.Safety

/-- R14, R97: this hardware's queue is unbounded, so no command is held. -/
@[simp] theorem held_queueDepth (s : State) (c : RawCommand) : held Config.queueDepth s c = false := by
  simp [held, queueFull, Config.queueDepth]

theorem readyAgents_eq (s : State) :
    readyAgents s = (nextCommands [] s.port).map .issuer ++ if busy s then [.enc] else [] := by
  simp [readyAgents]

theorem busy_iff (s : State) : busy s = true ↔ s.phase ≠ .idle ∨ s.queue ≠ [] := by
  simp [busy]

/-- R95: ENC has a step exactly while it is busy. -/
theorem enc_mem_readyAgents {s : State} : .enc ∈ readyAgents s ↔ s.phase ≠ .idle ∨ s.queue ≠ [] := by
  rw [readyAgents_eq, ← busy_iff]
  cases busy s <;> simp

theorem issuer_mem_readyAgents {s : State} {c : RawCommand} :
    .issuer c ∈ readyAgents s ↔ c ∈ nextCommands [] s.port := by
  rw [readyAgents_eq]
  cases busy s <;> simp

/-- With no agent met yet, a command waiting on the port has an agent ready to issue. -/
@[simp] theorem nextCommands_eq_nil {port : List RawCommand} : nextCommands [] port = [] ↔ port = [] := by
  cases port <;> simp [nextCommands]

theorem readyAgents_eq_nil {s : State} : readyAgents s = [] ↔ s.port = [] ∧ s.phase = .idle ∧ s.queue = [] := by
  rw [readyAgents_eq]
  simp [busy]

/-- R50: an agent that steps is one that has a step. -/
theorem mem_readyAgents_of_chooseAgent {s : State} {a : Agent} (h : chooseAgent s = some a) : a ∈ readyAgents s := by
  unfold chooseAgent at h
  split at h
  · cases h
  · rename_i b rest hr
    injection h with h
    rw [hr, ← h]
    exact pickFrom_mem b rest _

theorem chooseAgent_eq_none {s : State} : chooseAgent s = none ↔ readyAgents s = [] := by
  unfold chooseAgent
  split <;> simp [*]

/-- R50: the next command of an agent not met yet is the first of that agent's. -/
theorem nextCommands_split {c : RawCommand} {port : List RawCommand} {seen : List Source}
    (h : c ∈ nextCommands seen port) :
    c.src ∉ seen ∧ ∃ before after, port = before ++ c :: after ∧ ∀ d ∈ before, d.src ≠ c.src := by
  induction port generalizing seen with
  | nil => simp [nextCommands] at h
  | cons d port ih =>
    unfold nextCommands at h
    split at h
    · rename_i hd
      obtain ⟨hc, before, after, rfl, hb⟩ := ih h
      have hne : d.src ≠ c.src := fun e => hc (e ▸ hd)
      exact ⟨hc, d :: before, after, rfl, by simpa [hne] using hb⟩
    · rename_i hd
      obtain rfl | h := List.mem_cons.mp h
      · exact ⟨hd, [], port, rfl, by simp⟩
      · obtain ⟨hc, before, after, rfl, hb⟩ := ih h
        obtain ⟨hne, hc⟩ := List.ne_and_not_mem_of_not_mem_cons hc
        exact ⟨hc, d :: before, after, rfl, by simpa [Ne.symm hne] using hb⟩

/-- R56: a command taken from behind those of other agents leaves all of them in their order. -/
theorem erase_first_of_source {c : RawCommand} {before after : List RawCommand} (h : ∀ d ∈ before, d.src ≠ c.src) :
    (before ++ c :: after).erase c = before ++ after := by
  have hc : c ∉ before := fun hm => h c hm rfl
  rw [List.erase_append_right _ hc, List.erase_cons_head]

/-- R7, R50: while agents may step and ENC is chosen, the step is ENC's, the turn counted. -/
theorem step_of_enc {s : State} (hl : Live s) (hc : chooseAgent s = some .enc) : step s = encStep (advanceTurn s) := by
  obtain ⟨hr, hx⟩ := hl
  simp [step, hr, terminated, hx, hc]

theorem encStep_of_fetch {s : State} {i : Instr} (h : encFetch s = some i) : encStep s = exec i s := by
  simp [encStep, h]

theorem encFetch_sof {s : State} (h : s.phase = .fSofDat ∨ s.phase = .fSofHi ∨ s.phase = .fSofLo) :
    encFetch s = some .sof := by
  obtain h | h | h := h <;> simp [encFetch, h]

theorem encFetch_eof {s : State} (h : s.phase = .fEofDat ∨ s.phase = .fEofHi ∨ s.phase = .fEofLo) :
    encFetch s = some .eof := by
  obtain h | h | h := h <;> simp [encFetch, h]

/-- R104: the load phase is at the LEDW of pixel `p`'s record in the snapshot. -/
theorem encFetch_load {s : State} (hp : s.p < Config.pixels) (h : s.phase = .fPxLoad) :
    encFetch s = some (ledwOf s.latch[s.p]) := by
  have hrec : frameRecord Config.frameLatch s = some s.latch[s.p] := Vector.getElem?_eq_getElem hp
  simp [encFetch, h, hrec]

theorem encFetch_bit {s : State} {q : Pixel} (hw : s.w = ledWord q)
    (h : s.phase = .fBitDat ∨ s.phase = .fBitHi ∨ s.phase = .fBitLo) : encFetch s = some (ledwOf q) := by
  obtain h | h | h := h <;> simp [encFetch, h, ledwInFlight_of_word hw]

/-- R147: every instruction's meaning is guarded by the refusal. -/
theorem exec_guarded (i : Instr) (s : State) : ∃ k, exec i s = unlessRefused s k := by
  cases i <;> exact ⟨_, rfl⟩

theorem unlessRefused_of_refused {s : State} {r : RefReason} (h : s.refused = some r) (k : Result) :
    unlessRefused s k = .refused (.alreadyRefused r) := by
  simp [unlessRefused, h]

end Sys2Proof.Machine

namespace Sys2Proof.Proofs

open Sys2Proof.Machine Sys2Proof.Safety

/-- Settles O13: the agent chosen is ready, and a command ready to be issued is the first of its agent. -/
theorem scheduleKeepsProgramOrder : Obligations.ScheduleKeepsProgramOrder := by
  refine fun s => ⟨chooseAgent_eq_none.trans readyAgents_eq_nil,
    fun h => enc_mem_readyAgents.mp (mem_readyAgents_of_chooseAgent h), fun c h => ?_⟩
  obtain ⟨-, before, after, hport, hb⟩ := nextCommands_split (issuer_mem_readyAgents.mp (mem_readyAgents_of_chooseAgent h))
  exact ⟨before, after, hport, hb, hport ▸ erase_first_of_source hb⟩

/-- Settles O14: the step is ENC's, and in a frame's phase ENC fetches the frame's instruction. -/
theorem stepRunsFrameInstruction : Obligations.StepRunsFrameInstruction := by
  intro s hl hc
  have hstep : step s = encStep { s with turn := s.turn + 1 } := step_of_enc hl hc
  refine ⟨hstep, fun hp => ?_, fun h hp => ?_, fun q hw hp => ?_, fun hp => ?_⟩ <;> rw [hstep]
  · exact encStep_of_fetch (encFetch_sof hp)
  · exact encStep_of_fetch (encFetch_load (s := { s with turn := s.turn + 1 }) h hp)
  · exact encStep_of_fetch (encFetch_bit hw hp)
  · exact encStep_of_fetch (encFetch_eof hp)

/-- Settles O38: `step` looks at the refusal first, and so does every instruction. -/
theorem refusalStopsEverything : Obligations.RefusalStopsEverything := by
  intro s r hr
  refine ⟨by simp [step, hr], fun i => ?_⟩
  obtain ⟨k, hk⟩ := exec_guarded i s
  rw [hk, unlessRefused_of_refused hr]

end Sys2Proof.Proofs

/-! ### Reset, the commands and the GPIO instructions -/

namespace Sys2Proof.Machine

open Sys2Proof.Safety

/-- R80: a pair of checks is `ok` only when both are. -/
theorem bothChecked_eq_ok {α β : Type} {a : Checked α} {b : Checked β} {x : α × β} (h : bothChecked a b = .ok x) :
    a = .ok x.1 ∧ b = .ok x.2 := by
  cases a <;> cases b <;> cases h
  exact ⟨rfl, rfl⟩

/-- R26: the level of every record is the same in both states. -/
def SameLevels (s t : State) : Prop := ∀ m : Fin Config.pixels, t.buf[m].br = s.buf[m].br

/-- R146: a command refused for the exit sequence leaves every level alone, so its effect decides. -/
theorem sameLevels_of_accept {s t : State} {k : Result} (h : accept s k = .next t)
    (hk : k = .next t → SameLevels s t) : SameLevels s t := by
  obtain ⟨-, ⟨-, hnext⟩ | ⟨-, rfl⟩⟩ := accept_next h
  · exact hk hnext
  · exact fun _ => rfl

/-- R84, R88: a record by record update that keeps each level. -/
theorem sameLevels_mapPixels {s t : State} {f : Pixel → Pixel} (hf : ∀ q, (f q).br = q.br)
    (ht : t.buf = mapPixels f s.buf) : SameLevels s t := by
  intro m
  rw [ht, mapPixels_get, hf]

/-- R90: a record replaced by one of the same level. -/
theorem sameLevels_bufWrite {s t : State} {i : Fin Config.pixels} {q : Pixel} (hq : q.br = s.buf[i].br)
    (ht : t.buf = (bufWrite i q s).buf) : SameLevels s t := by
  intro m
  rw [ht, bufWrite_get]
  split
  · rename_i h
    rw [h, hq]
  · rfl

end Sys2Proof.Machine

namespace Sys2Proof.Proofs

open Sys2Proof.Machine Sys2Proof.Safety

/-- Settles O1: every element of the state after reset is a value written in its definition. -/
theorem resetMatchesTable : Obligations.ResetMatchesTable := by
  refine ⟨fun i => ?_, rfl, fun l => ?_, rfl, rfl, rfl, rfl, rfl, rfl, rfl, rfl, fun i => ?_, rfl, rfl, rfl, rfl, rfl, rfl⟩
  · simp [State.reset, Config.initBrightness]
  · cases l <;> exact ⟨rfl, rfl⟩
  · simp [State.reset]

/-- Settles O2: nothing is pending, no event has happened, and ENC is idle. -/
theorem resetMeetsInvariants : Obligations.ResetMeetsInvariants := by
  have hexit : exitFits State.reset := by simp [exitFits, jobsPending, State.reset]
  have hinv : Inv State.reset :=
    ⟨Nat.zero_le _, Nat.zero_le _, Nat.zero_le _, Nat.zero_le _, rfl, rfl, rfl, trivial, hexit⟩
  refine ⟨hinv, rfl, fun l => ?_⟩
  cases l <;> exact ⟨rfl, rfl⟩

/-- Settles O33: with brightness omitted each record is written back with its own level. -/
theorem omittedBrightnessNeverDrifts : Obligations.OmittedBrightnessNeverDrifts := by
  rintro src a0 a1 a2 a3 i s t (rfl | rfl | rfl) h
  · refine sameLevels_of_accept h fun hk => ?_
    injection hk with hk
    subst hk
    exact sameLevels_mapPixels (f := blackened) (fun _ => rfl) rfl
  · refine sameLevels_of_accept h fun hk => ?_
    split at hk <;> injection hk with hk <;> subst hk
    · rename_i c v hok
      obtain ⟨-, hv⟩ := bothChecked_eq_ok hok
      cases hv
      exact sameLevels_mapPixels (f := painted c none) (fun _ => rfl) rfl
    · exact fun _ => rfl
  · refine sameLevels_of_accept h fun hk => ?_
    split at hk <;> injection hk with hk <;> subst hk
    · rename_i i c v hok
      obtain ⟨-, hv⟩ := bothChecked_eq_ok (bothChecked_eq_ok hok).2
      cases hv
      exact sameLevels_bufWrite (i := i) (q := painted c none s.buf[i]) rfl rfl
    · exact fun _ => rfl

/-- Settles O35: the queue is unbounded, so the job is queued at once. -/
theorem showAndReleaseQueueAJob : Obligations.ShowAndReleaseQueueAJob := by
  rintro src o s ⟨hr, hx⟩ hhost hexit
  have ho : originOf src = o := by
    cases src with
    | host h => exact (hhost h rfl).symm
    | exitSrc => exact (hexit rfl).symm
  subst ho
  exact ⟨accept_of_accepting hr hx, accept_of_accepting hr hx⟩

/-- Settles O46: by the handle, and on an unacquired line by the outcome. -/
theorem gpioAcqAcquiresTheLine : Obligations.GpioAcqAcquiresTheLine := by
  rintro l s ⟨hr, hx⟩
  have hexec : exec (.gpioAcq l) s = _ := whenLive_of_live hr hx
  rw [hexec]
  refine ⟨fun hl hg => ?_, fun hl hg => ?_, fun hl => ?_, fun hl => ?_⟩
  · simp only [hl, acquireLine, gpioAcquire, hg]
    cases l <;> rfl
  · simp only [hl, acquireLine, gpioAcquire, hg]
    rfl
  · rw [hl]
  · rw [hl]

/-- Settles O47: by the handle, and on an acquired line by the outcome. -/
theorem gpioWrDrivesTheLine : Obligations.GpioWrDrivesTheLine := by
  rintro l v s ⟨hr, hx⟩
  have hexec : exec (.gpioWr l v) s = _ := whenLive_of_live hr hx
  rw [hexec]
  refine ⟨fun hl hg => ?_, fun hl hg => ?_, fun hl => ?_⟩
  · simp only [hl, gpioWrite, hg]
    rfl
  · simp only [hl, gpioWrite, hg]
    rfl
  · cases hh : s.hs l with
    | acq => exact absurd hh hl
    | unacq => rfl
    | rel => rfl

end Sys2Proof.Proofs

/-! ### The index check -/

namespace Sys2Proof.Machine

open Sys2Proof.Safety

theorem oneUnits_nat_pos : 0 < oneUnits := by exact_mod_cast oneUnits_pos

/-- R61: a whole number of units `i` below `N` is accepted as `i`. -/
theorem chkIndex_of_whole {x : Binary64} {neg : Bool} (i : Fin Config.pixels)
    (hx : fpValue x = .finite neg (i.val * oneUnits)) (hneg : atLeastZero neg (i.val * oneUnits) = true) :
    chkIndex (.num x) = .ok i := by
  have hfloor : floorUnits (i.val * oneUnits) = i.val := by
    rw [floorUnits, Nat.mul_div_cancel _ oneUnits_nat_pos]
  have hint : isIntegerUnits (i.val * oneUnits) = true := by
    rw [isIntegerUnits, Nat.mul_mod_left]; rfl
  have hlt : floorUnits (i.val * oneUnits) < Config.pixels := by rw [hfloor]; exact i.isLt
  simp only [chkIndex, hx]
  rw [dif_pos ⟨by rw [hint, hneg]; rfl, hlt⟩]
  exact congrArg Checked.ok (Fin.ext hfloor)

/-- R61: what the index check accepts stands for the number it gives. -/
theorem binary64Real_of_chkIndex {x : Binary64} {i : Fin Config.pixels} (h : chkIndex (.num x) = .ok i) :
    binary64Real x = some (i.val : ℚ) := by
  simp only [chkIndex] at h
  split at h
  · rename_i neg u hx
    split at h
    · rename_i hu
      cases h
      obtain ⟨hchecks, -⟩ := hu
      obtain ⟨hint, hneg⟩ := Bool.and_eq_true_iff.mp hchecks
      have hdiv : oneUnits ∣ u := Nat.dvd_of_mod_eq_zero (by simpa [isIntegerUnits] using hint)
      have hsign : withSign neg u = u := by
        cases neg
        · rfl
        · obtain rfl : u = 0 := by simpa [atLeastZero] using hneg
          rfl
      rw [binary64Real_of_finite hx, hsign, Int.cast_natCast]
      exact congrArg some (Nat.cast_div hdiv oneUnits_pos.ne').symm
    · cases h
  · cases h
  · cases h

/-- R61: a number the index check does not accept is out of range. -/
theorem chkIndex_num_cases (x : Binary64) :
    (∃ i, chkIndex (.num x) = .ok i) ∨ chkIndex (.num x) = .bad ⟨.range, .index⟩ [] := by
  simp only [chkIndex]
  split
  · split
    · exact .inl ⟨_, rfl⟩
    · exact .inr rfl
  · exact .inr rfl
  · exact .inr rfl

end Sys2Proof.Machine

namespace Sys2Proof.Proofs

open Sys2Proof.Machine Sys2Proof.Safety

/-- Settles O23: an accepted value stands for the index it gives, and a value that stands for an index is a whole number of
units. -/
theorem indexCheckFollowsTheNumber : Obligations.IndexCheckFollowsTheNumber := by
  refine ⟨fun a ha => ?_, fun x i hx => ?_, fun x hx => ?_⟩
  · cases a with
    | num x => exact absurd rfl (ha x)
    | _ => rfl
  · obtain ⟨neg, u, hfin, hneg, hu⟩ := finite_of_binary64Real_nonneg hx (Nat.cast_nonneg _)
    rw [eq_div_iff oneUnits_pos.ne'] at hu
    obtain rfl : i.val * oneUnits = u := by exact_mod_cast hu
    exact chkIndex_of_whole i hfin hneg
  · obtain ⟨i, hi⟩ | hbad := chkIndex_num_cases x
    · exact absurd (binary64Real_of_chkIndex hi) (hx i)
    · exact hbad

/-- Settles O17: an accepted command with a valid index takes the arm that returns the record. -/
theorem getPixelReturnsTheRecord : Obligations.GetPixelReturnsTheRecord := by
  rintro src a i s ⟨hr, hx⟩ hi
  have hexec : exec (.getPixel src a) s = _ := accept_of_accepting hr hx
  rw [hexec, hi]
  rfl

end Sys2Proof.Proofs

/-! ### The write phases -/

namespace Sys2Proof.Machine

open Sys2Proof.Safety

/-- R101 to R110: in a write phase the frame instruction ENC is at issues that phase's write. -/
theorem exec_of_writeAt {s : State} {l : Line} {v : Bool} {f : State → State} {i : Instr} {n : Nat} {o : Origin}
    (hw : WriteAt s l v f) (hi : encFetch s = some i) (hl : Live s) (hc : s.cur = some (.flush n o)) :
    exec i s = writePhase n l v f s := by
  obtain ⟨hr, hx⟩ := hl
  have guards (k : Nat → Result) : whenLive s (inFlush s k) = k n := (whenLive_of_live hr hx).trans (inFlush_of_flush hc)
  have sof (hp : s.phase = .fSofDat ∨ s.phase = .fSofHi ∨ s.phase = .fSofLo)
      (hs : execSof s = writePhase n l v f s) : exec i s = writePhase n l v f s := by
    rw [encFetch_sof hp] at hi
    cases hi
    exact hs
  have eof (hp : s.phase = .fEofDat ∨ s.phase = .fEofHi ∨ s.phase = .fEofLo)
      (hs : execEof s = writePhase n l v f s) : exec i s = writePhase n l v f s := by
    rw [encFetch_eof hp] at hi
    cases hi
    exact hs
  cases hw with
  | sofDat hp => exact sof (.inl hp) (by rw [execSof, guards, hp])
  | sofHi hp => exact sof (.inr (.inl hp)) (by rw [execSof, guards, hp])
  | sofLo hp => exact sof (.inr (.inr hp)) (by rw [execSof, guards, hp])
  | eofDat hp => exact eof (.inl hp) (by rw [execEof, guards, hp])
  | eofHi hp => exact eof (.inr (.inl hp)) (by rw [execEof, guards, hp])
  | eofLo hp => exact eof (.inr (.inr hp)) (by rw [execEof, guards, hp])
  | bitDat hp | bitHi hp | bitLo hp =>
    have hfetch : ledwInFlight s = some i := by simpa only [encFetch, hp] using hi
    obtain ⟨q, rfl, hq⟩ := ledwInFlight_some hfetch
    have hexec : exec (ledwOf q) s = _ := guards _
    rw [hexec, hp]
    exact if_pos hq

/-- R101 to R110: the write a phase is at, as the statements name it, is ENC's. -/
theorem writeAt_of_phaseWrite {s : State} {q : Pixel} {i : Instr} {l : Line} {v : Bool}
    (h : phaseWrite s q = some (i, l, v)) : encFetch s = some i ∧ ∃ f, WriteAt s l v f := by
  cases hp : s.phase <;> simp only [phaseWrite, hp, reduceCtorEq] at h
  case fSofDat => cases h; exact ⟨encFetch_sof (.inl hp), _, .sofDat hp⟩
  case fSofHi => cases h; exact ⟨encFetch_sof (.inr (.inl hp)), _, .sofHi hp⟩
  case fSofLo => cases h; exact ⟨encFetch_sof (.inr (.inr hp)), _, .sofLo hp⟩
  case fEofDat => cases h; exact ⟨encFetch_eof (.inl hp), _, .eofDat hp⟩
  case fEofHi => cases h; exact ⟨encFetch_eof (.inr (.inl hp)), _, .eofHi hp⟩
  case fEofLo => cases h; exact ⟨encFetch_eof (.inr (.inr hp)), _, .eofLo hp⟩
  case fBitDat =>
    split at h <;> cases h
    exact ⟨encFetch_bit ‹_› (.inl hp), _, .bitDat hp⟩
  case fBitHi =>
    split at h <;> cases h
    exact ⟨encFetch_bit ‹_› (.inr (.inl hp)), _, .bitHi hp⟩
  case fBitLo =>
    split at h <;> cases h
    exact ⟨encFetch_bit ‹_› (.inr (.inr hp)), _, .bitLo hp⟩

/-- R38: the completion of a job is no GPIO event. -/
@[simp] theorem gpioEvents_append_done (es : List Event) (n : Nat) (st : Status) :
    gpioEvents (es ++ [.done n st]) = gpioEvents es := by
  simp [gpioEvents, Event.gpioForm]

end Sys2Proof.Machine

namespace Sys2Proof.Proofs

open Sys2Proof.Machine Sys2Proof.Safety

/-- Settles O15: both instructions issue the same write; what the phase adds to it moves no line and is no GPIO event. -/
theorem writePhasesIssueOneGpioWr : Obligations.WritePhasesIssueOneGpioWr := by
  rintro s q n o i l v ⟨hr, hx⟩ hc ha hw
  obtain ⟨hfetch, f, hwrite⟩ := writeAt_of_phaseWrite hw
  have hgpio : exec (.gpioWr l v) s = .next (gpioWrite l v s) := by
    refine (whenLive_of_live hr hx).trans ?_
    rw [ha]
  refine ⟨_, _, hgpio, (exec_of_writeAt hwrite hfetch ⟨hr, hx⟩ hc).trans (writePhase_of_acq ha), ?_⟩
  cases gpioAnswer s with
  | ok =>
    obtain ⟨_, _, _, _, _, _, hf⟩ := hwrite.next_eq (gpioWrite l v s)
    simp only [hf, and_self]
  | fail => exact ⟨rfl, rfl, rfl, rfl, rfl, rfl, gpioEvents_append_done _ _ _⟩

end Sys2Proof.Proofs

/-! ### The writes of a frame: how many, what they carry, and where each bit stands -/

namespace Sys2Proof.Machine

/-! #### Lists put together from pieces of one length -/

theorem length_flatMap_uniform {α β : Type} {f : α → List β} {c : Nat} (hf : ∀ a, (f a).length = c) (as : List α) :
    (as.flatMap f).length = c * as.length := by
  simp [List.length_flatMap, hf, Nat.mul_comm]

/-- Position `c * i + r` is position `r` of piece `i`. -/
theorem getElem?_flatMap_uniform {α β : Type} {f : α → List β} {c : Nat} (hf : ∀ a, (f a).length = c) {as : List α}
    {i r : Nat} {a : α} (ha : as[i]? = some a) (hr : r < c) : (as.flatMap f)[c * i + r]? = (f a)[r]? := by
  induction as generalizing i with
  | nil => cases ha
  | cons b bs ih =>
    rw [List.flatMap_cons]
    cases i with
    | zero =>
      obtain rfl : b = a := by simpa using ha
      rw [Nat.mul_zero, Nat.zero_add, List.getElem?_append_left (by rwa [hf])]
    | succ i =>
      have hpos : c * (i + 1) + r = (f b).length + (c * i + r) := by rw [hf]; ring
      rw [hpos, List.getElem?_append_right (Nat.le_add_right _ _), Nat.add_sub_cancel_left]
      exact ih (by simpa using ha)

/-! #### Lengths (R72, R116) -/

theorem framingRun_length (n : Nat) : (framingRun n).length = 2 * n + 1 := by
  simp [framingRun, pulse, Nat.mul_comm]

theorem wordBits_length (w : Word) : (wordBits w).length = 32 := by simp [wordBits]

theorem bitWrites_length (b : Bool) : (bitWrites b).length = 3 := rfl

theorem wordWrites_length (w : Word) : (wordWrites w).length = 96 := by
  rw [wordWrites, length_flatMap_uniform bitWrites_length, wordBits_length]

/-- R71: the command words of a buffer. -/
def frameWords (q : Pixels) : List Word := q.toList.map ledWord

theorem frameWords_length (q : Pixels) : (frameWords q).length = 8 := by simp [frameWords]

theorem frameWords_getElem? (q : Pixels) (p : Fin Config.pixels) : (frameWords q)[p.val]? = some (ledWord q[p]) := by
  simp [frameWords]

theorem frameWrites_eq (q : Pixels) :
    frameWrites q = framingRun 32 ++ ((frameWords q).flatMap wordWrites ++ framingRun 36) :=
  List.append_assoc _ _ _

theorem frameWrites_length (q : Pixels) : (frameWrites q).length = 906 := by
  rw [frameWrites_eq, List.length_append, List.length_append, framingRun_length, framingRun_length,
    length_flatMap_uniform wordWrites_length, frameWords_length]

theorem frameBits_length (q : Pixels) : (frameBits q).length = 324 := by
  have hwords : ((frameWords q).flatMap wordBits).length = 32 * 8 := by
    rw [length_flatMap_uniform wordBits_length, frameWords_length]
  rw [frameBits, List.length_append, List.length_append, List.length_replicate, List.length_replicate]
  exact congrArg (32 + · + 36) hwords

/-! #### The bits carried (R71, R76) -/

/-- R76: the writes carry these bits whatever level the data line had before. -/
def Carries (es : List Event) (bits : List Bool) : Prop := ∀ level, clockedBits level es = bits

theorem carries_nil : Carries [] [] := fun _ => rfl

theorem Carries.bitWrites_append {es : List Event} {bits : List Bool} (h : Carries es bits) (b : Bool) :
    Carries (bitWrites b ++ es) (b :: bits) :=
  fun _ => congrArg (b :: ·) (h b)

theorem Carries.bits_append {es : List Event} {bits : List Bool} (h : Carries es bits) (bs : List Bool) :
    Carries (bs.flatMap bitWrites ++ es) (bs ++ bits) := by
  induction bs with
  | nil => exact h
  | cons b bs ih =>
    rw [List.flatMap_cons, List.append_assoc]
    exact ih.bitWrites_append b

theorem Carries.words_append {es : List Event} {bits : List Bool} (h : Carries es bits) (ws : List Word) :
    Carries (ws.flatMap wordWrites ++ es) (ws.flatMap wordBits ++ bits) := by
  have hws : ws.flatMap wordWrites = (ws.flatMap wordBits).flatMap bitWrites := List.flatMap_assoc.symm
  rw [hws]
  exact h.bits_append _

/-- R76: a clock pulse carries the level of the data line and leaves it. -/
theorem clockedBits_pulses_append (level : Bool) (n : Nat) (es : List Event) :
    clockedBits level ((List.replicate n pulse).flatten ++ es) = List.replicate n level ++ clockedBits level es := by
  induction n with
  | zero => rfl
  | succ n ih =>
    rw [List.replicate_succ, List.flatten_cons, List.append_assoc, List.replicate_succ, List.cons_append, ← ih]
    rfl

theorem Carries.framingRun_append {es : List Event} {bits : List Bool} (h : Carries es bits) (n : Nat) :
    Carries (framingRun n ++ es) (List.replicate n false ++ bits) :=
  fun _ => (clockedBits_pulses_append false n es).trans (by rw [h false])

theorem carries_frameWrites (q : Pixels) : Carries (frameWrites q) (frameBits q) := by
  have h := ((carries_nil.framingRun_append 36).words_append (frameWords q)).framingRun_append 32
  rw [List.append_nil, List.append_nil, ← List.append_assoc (List.replicate 32 false)] at h
  rw [frameWrites_eq]
  exact h

/-! #### The place of each bit (R116) -/

theorem wordWrites_getElem? (w : Word) {i r : Nat} (hi : i < 32) (hr : r < 3) :
    (wordWrites w)[3 * i + r]? = (bitWrites (w.getLsbD (31 - i)))[r]? :=
  getElem?_flatMap_uniform bitWrites_length (by simp [wordBits, hi]) hr

/-- R116: where the three writes of bit `7 - j` of byte `k` of pixel `p`'s word stand. -/
theorem frameWrites_getElem? (q : Pixels) (p : Fin Config.pixels) (k : Fin 4) (j : Fin 8) {r : Nat} (hr : r < 3) :
    (frameWrites q)[65 + 96 * p.val + 24 * k.val + 3 * j.val + r]? =
      (bitWrites ((byteOf (ledWord q[p]) k).getLsbD (7 - j)))[r]? := by
  have hp : p.val < 8 := p.isLt
  have hframe : 65 + 96 * p.val + 24 * k.val + 3 * j.val + r =
      (framingRun 32).length + (96 * p.val + (3 * (8 * k.val + j.val) + r)) := by
    rw [framingRun_length]; omega
  have hwords : ((frameWords q).flatMap wordWrites).length = 96 * 8 := by
    rw [length_flatMap_uniform wordWrites_length, frameWords_length]
  rw [frameWrites_eq, hframe, List.getElem?_append_right (Nat.le_add_right _ _), Nat.add_sub_cancel_left,
    List.getElem?_append_left (by omega),
    getElem?_flatMap_uniform wordWrites_length (frameWords_getElem? q p) (by omega),
    wordWrites_getElem? _ (by omega) hr, byteOf_getLsbD _ _ _ k.isLt j.isLt, Nat.sub_sub]

end Sys2Proof.Machine

namespace Sys2Proof.Proofs

open Sys2Proof.Machine

/-- Settles O56: piece by piece, a start frame, eight words of 32 bits of three writes each, and an end frame. -/
theorem frameWritesCarryTheFrame : Obligations.FrameWritesCarryTheFrame := by
  refine fun q => ⟨frameWrites_length q, frameBits_length q, carries_frameWrites q, fun p k j => ⟨?_, ?_, ?_⟩⟩
  · exact frameWrites_getElem? q p k j (r := 0) (by decide)
  · exact frameWrites_getElem? q p k j (r := 1) (by decide)
  · exact frameWrites_getElem? q p k j (r := 2) (by decide)

end Sys2Proof.Proofs

/-! ### Runs of ENC: the writes of a frame, one step each -/

namespace Sys2Proof.Machine

open Sys2Proof.Safety

/-! #### Runs -/

theorem run_succ_of_next {M : Host.Core} {n : Nat} {s u : M.State} (h : M.step s = .next u) :
    M.run (n + 1) s = M.run n u := by
  rw [Host.Core.run, h]

theorem run_add_of_next {M : Host.Core} {m n : Nat} {s u : M.State} (h : M.run m s = .next u) :
    M.run (m + n) s = M.run n u := by
  induction m generalizing s with
  | zero =>
    obtain rfl : s = u := Host.Outcome.next.inj h
    rw [Nat.zero_add]
  | succ m ih =>
    rw [Nat.add_right_comm]
    cases hs : M.step s with
    | next v =>
      rw [run_succ_of_next hs] at h ⊢
      exact ih h
    | fault r => simp [Host.Core.run, hs] at h
    | refused r => simp [Host.Core.run, hs] at h

/-- `n` steps of the machine lead from `s` to `t`. -/
def Runs (n : Nat) (s t : State) : Prop := Sys2Proof.core.run n s = .next t

theorem Runs.refl (s : State) : Runs 0 s s := rfl

theorem Runs.one {s t : State} (h : step s = .next t) : Runs 1 s t := run_succ_of_next (M := Sys2Proof.core) h

theorem Runs.trans {m n : Nat} {s u t : State} (hm : Runs m s u) (hn : Runs n u t) : Runs (m + n) s t :=
  (run_add_of_next (M := Sys2Proof.core) hm).trans hn

/-- A loop: `c` steps lead from each state of a sequence to the next. -/
theorem Runs.iterate {c m : Nat} {f : Nat → State} (h : ∀ i < m, Runs c (f i) (f (i + 1))) :
    Runs (c * m) (f 0) (f m) := by
  induction m with
  | zero => exact .refl _
  | succ m ih => exact (ih fun i hi => h i (hi.trans m.lt_succ_self)).trans (h m m.lt_succ_self)

/-! #### ENC alone, its actions succeeding -/

/-- R50: with no command on the port a busy ENC is the agent that steps. -/
theorem step_of_onlyEncoder {s : State} (h : OnlyEncoder s) (hp : s.phase ≠ .idle) :
    step s = encStep (advanceTurn s) := by
  obtain ⟨hl, hport⟩ := h
  refine step_of_enc hl ?_
  simp [chooseAgent, readyAgents_eq, hport, nextCommands, busy, hp]

/-- R31, R32: the phase and the registers of a frame in progress. -/
structure Registers where
  phase : Phase
  cnt : Nat
  p : Nat
  k : Nat
  j : Nat
  sr : Byte
  w : Word

/-- R31, R32: the registers of a state. -/
def State.registers (s : State) : Registers := ⟨s.phase, s.cnt, s.p, s.k, s.j, s.sr, s.w⟩

/-- A state with its registers set. -/
def State.withRegisters (s : State) (r : Registers) : State :=
  { s with phase := r.phase, cnt := r.cnt, p := r.p, k := r.k, j := r.j, sr := r.sr, w := r.w }

/-- R29, R38, R145: `n` steps of ENC whose GPIO actions, all successful, are those of `es`: the levels they leave, the trace, the
outcomes used up and the steps counted. -/
def played (n : Nat) (es : List Event) (s : State) : State :=
  { s with
    lvlClk := es.foldl (levelAfter .clk) s.lvlClk, lvlDat := es.foldl (levelAfter .dat) s.lvlDat, trace := s.trace ++ es,
    answers := s.answers.drop es.length, draws := s.draws + es.length, turn := s.turn + n }

@[simp] theorem withRegisters_withRegisters (s : State) (r q : Registers) :
    (s.withRegisters r).withRegisters q = s.withRegisters q := rfl

@[simp] theorem registers_withRegisters (s : State) (r : Registers) : (s.withRegisters r).registers = r := rfl
@[simp] theorem withRegisters_latch (s : State) (r : Registers) : (s.withRegisters r).latch = s.latch := rfl
@[simp] theorem played_latch (n : Nat) (es : List Event) (s : State) : (played n es s).latch = s.latch := rfl

/-- The actions do not depend on the registers. -/
@[simp] theorem played_withRegisters (n : Nat) (es : List Event) (s : State) (r : Registers) :
    played n es (s.withRegisters r) = (played n es s).withRegisters r := rfl

@[simp] theorem played_played (m n : Nat) (es fs : List Event) (s : State) :
    played n fs (played m es s) = played (m + n) (es ++ fs) s := by
  simp [played, Nat.add_assoc]

theorem played_zero (s : State) : played 0 [] s = s := by
  simp [played]

theorem advanceTurn_eq_played (s : State) : advanceTurn s = played 1 [] s := by
  simp [played, advanceTurn]

/-- A flush is in progress, both lines held, ENC alone has a step, and the next `k` GPIO actions succeed. -/
structure Sending (k : Nat) (s : State) : Prop where
  only : OnlyEncoder s
  flush : ∃ n o, s.cur = some (.flush n o)
  held : bothHeld s
  oks : List.replicate k .ok <+: s.answers

/-- R145: of the outcomes settled in advance the first are used up. -/
theorem oks_drop {k m d : Nat} {as : List GpioOutcome} (h : List.replicate k .ok <+: as) (hk : d + m ≤ k) :
    List.replicate m .ok <+: as.drop d := by
  have hdrop := h.drop d
  rw [List.drop_replicate] at hdrop
  have hprefix : List.replicate m GpioOutcome.ok <+: List.replicate (k - d) .ok :=
    List.prefix_replicate_iff.mpr ⟨by rw [List.length_replicate]; omega, by rw [List.length_replicate]⟩
  exact hprefix.trans hdrop

theorem Sending.after_played {k m : Nat} {es : List Event} {s : State} (h : Sending k s) (n : Nat)
    (hk : es.length + m ≤ k) : Sending m (played n es s) :=
  ⟨h.only, h.flush, h.held, oks_drop h.oks hk⟩

theorem Sending.withRegisters {k : Nat} {s : State} (h : Sending k s) (r : Registers) : Sending k (s.withRegisters r) :=
  ⟨h.only, h.flush, h.held, h.oks⟩

theorem gpioAnswer_of_oks {k : Nat} {s : State} (h : List.replicate k .ok <+: s.answers) (hk : 0 < k) :
    gpioAnswer s = .ok := by
  obtain ⟨rest, hs⟩ := h
  obtain ⟨k, rfl⟩ := Nat.exists_eq_succ_of_ne_zero hk.ne'
  rw [gpioAnswer, ← hs]
  rfl

theorem gpioWrite_eq_played {s : State} (l : Line) (v : Bool) (h : gpioAnswer s = .ok) :
    gpioWrite l v (advanceTurn s) = played 1 [.wr l v .ok] s := by
  have ha : gpioAnswer (advanceTurn s) = .ok := h
  rw [gpioWrite, ha]
  cases l <;> simp [played, setLvl, emit, afterDraw, advanceTurn, levelAfter]

/-- R101 to R110: the write of a phase does not depend on the steps taken so far. -/
theorem writeAt_advanceTurn {s : State} {l : Line} {v : Bool} {f : State → State} (h : WriteAt s l v f) :
    WriteAt (advanceTurn s) l v f := by
  cases h with
  | sofDat hp => exact .sofDat hp
  | sofHi hp => exact .sofHi hp
  | sofLo hp => exact .sofLo hp
  | bitDat hp => exact .bitDat (s := advanceTurn s) hp
  | bitHi hp => exact .bitHi hp
  | bitLo hp => exact .bitLo hp
  | eofDat hp => exact .eofDat hp
  | eofHi hp => exact .eofHi hp
  | eofLo hp => exact .eofLo hp

/-- R101 to R110: a write phase whose write succeeds. -/
theorem Sending.runs_write {k : Nat} {s : State} {l : Line} {v : Bool} {f : State → State} (h : Sending k s)
    (hk : 0 < k) (hw : WriteAt s l v f) (hf : ∃ i, encFetch s = some i) : Runs 1 s (f (played 1 [.wr l v .ok] s)) := by
  obtain ⟨honly, ⟨n, o, hc⟩, ⟨hclk, hdat⟩, hoks⟩ := h
  have hok := gpioAnswer_of_oks hoks hk
  have hok' : gpioAnswer (advanceTurn s) = .ok := hok
  have hheld : (advanceTurn s).hs l = .acq := by cases l <;> assumption
  have hbusy : s.phase ≠ .idle := by cases hw <;> simp [*]
  obtain ⟨i, hi⟩ := hf
  have hfetch : encFetch (advanceTurn s) = some i := hi
  refine .one ((step_of_onlyEncoder honly hbusy).trans ?_)
  rw [encStep_of_fetch hfetch, exec_of_writeAt (writeAt_advanceTurn hw) hfetch honly.1 hc, writePhase_of_acq hheld, hok',
    gpioWrite_eq_played l v hok]

/-! #### The framing runs (R101 to R103, R108 to R110) -/

/-- R69, R70: the phases of a framing run of `total` pulses: the data line low, then each pulse's two writes. -/
structure IsFraming (total : Nat) (dat hi lo done : Phase) : Prop where
  dat_write : ∀ s : State, s.phase = dat → WriteAt s .dat false (startPulses hi)
  hi_write : ∀ s : State, s.phase = hi → WriteAt s .clk true (fun s => { s with phase := lo })
  lo_write : ∀ s : State, s.phase = lo → WriteAt s .clk false (countPulse total hi done)
  fetch : ∀ s : State, s.phase = dat ∨ s.phase = hi ∨ s.phase = lo → ∃ i, encFetch s = some i

theorem isFraming_sof : IsFraming 32 .fSofDat .fSofHi .fSofLo .fPxLoad :=
  ⟨fun _ => .sofDat, fun _ => .sofHi, fun _ => .sofLo, fun _ h => ⟨_, encFetch_sof h⟩⟩

theorem isFraming_eof : IsFraming 36 .fEofDat .fEofHi .fEofLo .fDone :=
  ⟨fun _ => .eofDat, fun _ => .eofHi, fun _ => .eofLo, fun _ h => ⟨_, encFetch_eof h⟩⟩

/-- R103, R110: `i` of the `total` pulses of a framing run have been sent. -/
def atPulse (total : Nat) (hi done : Phase) (r : Registers) (i : Nat) : Registers :=
  { r with cnt := i, phase := if i = total then done else hi }

/-- The writes of `i` pulses. -/
def pulses (i : Nat) : List Event := (List.replicate i pulse).flatten

theorem pulses_succ (i : Nat) : pulses (i + 1) = pulses i ++ pulse := by
  rw [pulses, List.replicate_succ', List.flatten_concat, pulses]

theorem pulses_length (i : Nat) : (pulses i).length = 2 * i := by simp [pulses, pulse, Nat.mul_comm]

theorem IsFraming.runs_pulse {total k : Nat} {dat hi lo done : Phase} (hf : IsFraming total dat hi lo done) {s : State}
    (h : Sending k s) (hk : 2 * total ≤ k) (r : Registers) {i : Nat} (hlt : i < total) :
    Runs 2 ((played (2 * i) (pulses i) s).withRegisters (atPulse total hi done r i))
      ((played (2 * (i + 1)) (pulses (i + 1)) s).withRegisters (atPulse total hi done r (i + 1))) := by
  have hphase : (atPulse total hi done r i).phase = hi := if_neg hlt.ne
  have hsend : Sending 2 (played (2 * i) (pulses i) s) := h.after_played _ (by rw [pulses_length]; omega)
  have hhi := (hsend.withRegisters (atPulse total hi done r i)).runs_write (by decide) (hf.hi_write _ hphase)
    (hf.fetch _ (.inr (.inl hphase)))
  have hsend' : Sending 1 (played 1 [.wr .clk true .ok] (played (2 * i) (pulses i) s)) := hsend.after_played 1 le_rfl
  have hlo := (hsend'.withRegisters { atPulse total hi done r i with phase := lo }).runs_write (by decide)
    (hf.lo_write _ rfl) (hf.fetch _ (.inr (.inr rfl)))
  have hpulse : played 1 [.wr .clk false .ok] (played 1 [.wr .clk true .ok] (played (2 * i) (pulses i) s)) =
      played (2 * (i + 1)) (pulses (i + 1)) s := by
    rw [played_played, played_played, pulses_succ]
    rfl
  rw [← hpulse]
  exact hhi.trans hlo

/-- R69, R70: a whole framing run. -/
theorem IsFraming.runs {total k : Nat} {dat hi lo done : Phase} (hf : IsFraming total dat hi lo done) {s : State}
    (h : Sending k s) (hk : 1 + 2 * total ≤ k) (hpos : 0 < total) (hp : s.phase = dat) :
    Runs (1 + 2 * total) s
      ((played (1 + 2 * total) (framingRun total) s).withRegisters { s.registers with cnt := total, phase := done }) := by
  have hdat := h.runs_write (by omega) (hf.dat_write s hp) (hf.fetch s (.inl hp))
  have hstart : startPulses hi (played 1 [.wr .dat false .ok] s) =
      (played (2 * 0) (pulses 0) (played 1 [.wr .dat false .ok] s)).withRegisters
        (atPulse total hi done s.registers 0) := by
    rw [show played (2 * 0) (pulses 0) _ = _ from played_zero _, atPulse, if_neg hpos.ne]
    rfl
  have hsend : Sending (2 * total) (played 1 [.wr .dat false .ok] s) := h.after_played 1 (by simpa using hk)
  have hpulses := Runs.iterate
    (f := fun i => (played (2 * i) (pulses i) (played 1 [.wr .dat false .ok] s)).withRegisters
      (atPulse total hi done s.registers i))
    fun i hlt => hf.runs_pulse hsend le_rfl s.registers hlt
  rw [hstart] at hdat
  have hrun := hdat.trans hpulses
  rw [played_played, atPulse, if_pos rfl] at hrun
  exact hrun

/-! #### The command word (R104 to R107) -/

/-- R104 to R107: bit `i` of the word `w`, counted from the first sent, is the next to send. -/
def atBit (w : Word) (r : Registers) (i : Nat) : Registers :=
  { r with w := w, k := i / 8, j := i % 8, sr := byteOf w (i / 8) <<< (i % 8), phase := .fBitDat }

/-- R107: the word `w` has been sent. -/
def wordSent (w : Word) (r : Registers) : Registers :=
  { r with
    w := w, k := 3, j := 8, sr := 0, p := if r.p < 7 then r.p + 1 else r.p,
    phase := if r.p < 7 then .fPxLoad else .fEofDat }

theorem loadWord_eq_atBit (q : Pixel) (s : State) :
    loadWord q s = s.withRegisters (atBit (ledWord q) s.registers 0) := by
  simp [loadWord, State.withRegisters, State.registers, atBit]

theorem atBit_bit (w : Word) (r : Registers) {i : Nat} (hi : i < 32) :
    (atBit w r i).sr.getLsbD 7 = w.getLsbD (31 - i) := by
  have hbit : 31 - 8 * (i / 8) - i % 8 = 31 - i := by omega
  rw [atBit, shifted_getLsbD _ _ (Nat.mod_lt _ (by decide)),
    byteOf_getLsbD w _ _ (by omega) (Nat.mod_lt _ (by decide)), hbit]

theorem advanceBit_atBit (w : Word) (s : State) (r : Registers) {i : Nat} (hi : i < 31) :
    advanceBit (s.withRegisters (atBit w r i)) = s.withRegisters (atBit w r (i + 1)) := by
  obtain ⟨hj, e⟩ | ⟨hj, hk, e⟩ | ⟨hj, hk, -, -⟩ | ⟨hj, hk, -, -⟩ := advanceBit_cases (s.withRegisters (atBit w r i)) <;>
    simp only [State.withRegisters, atBit] at hj
  · have hdiv : (i + 1) / 8 = i / 8 := by omega
    have hmod : (i + 1) % 8 = i % 8 + 1 := by omega
    rw [e, atBit, atBit, hdiv, hmod, BitVec.shiftLeft_add]
    rfl
  · have hdiv : (i + 1) / 8 = i / 8 + 1 := by omega
    have hmod : (i + 1) % 8 = 0 := by omega
    rw [e, atBit, atBit, hdiv, hmod, BitVec.shiftLeft_zero]
    rfl
  · simp only [State.withRegisters, atBit] at hk; omega
  · simp only [State.withRegisters, atBit] at hk; omega

/-- R107: after the last bit of a word the next pixel, or after the last pixel the end frame. -/
theorem advanceBit_atBit_last (w : Word) (s : State) (r : Registers) :
    advanceBit (s.withRegisters (atBit w r 31)) = s.withRegisters (wordSent w r) := by
  have hsr : byteOf w 3 <<< 7 <<< 1 = 0 := by
    rw [← BitVec.shiftLeft_add]
    exact BitVec.shiftLeft_eq_zero (by decide)
  by_cases hp : r.p < 7 <;> simp [advanceBit, State.withRegisters, atBit, wordSent, hsr, hp]

/-- R105 to R107: the three writes of one bit. -/
theorem Sending.runs_bit {s : State} {q : Pixel} (h : Sending 3 s) (hp : s.phase = .fBitDat) (hw : s.w = ledWord q) :
    Runs 3 s (advanceBit (played 3 (bitWrites (s.sr.getLsbD 7)) s)) := by
  have hdat := h.runs_write (by decide) (.bitDat hp) ⟨_, encFetch_bit hw (.inl hp)⟩
  have hsend : Sending 2 (played 1 [.wr .dat (s.sr.getLsbD 7) .ok] s) := h.after_played 1 le_rfl
  have hhi := (hsend.withRegisters { s.registers with phase := .fBitHi }).runs_write (by decide) (.bitHi rfl)
    ⟨_, encFetch_bit hw (.inr (.inl rfl))⟩
  have hsend' : Sending 1 (played 1 [.wr .clk true .ok] (played 1 [.wr .dat (s.sr.getLsbD 7) .ok] s)) :=
    hsend.after_played 1 le_rfl
  have hlo := (hsend'.withRegisters { s.registers with phase := .fBitLo }).runs_write (by decide) (.bitLo rfl)
    ⟨_, encFetch_bit hw (.inr (.inr rfl))⟩
  have hbit : played 1 [.wr .clk false .ok] (played 1 [.wr .clk true .ok]
      (played 1 [.wr .dat (s.sr.getLsbD 7) .ok] s)) = played 3 (bitWrites (s.sr.getLsbD 7)) s := by
    rw [played_played, played_played]
    rfl
  rw [← hbit]
  exact (hdat.trans hhi).trans hlo

/-- R71: the first `i` bits sent of a word. -/
def firstBits (w : Word) (i : Nat) : List Bool := (List.range i).map fun m => w.getLsbD (31 - m)

/-- The writes of the first `i` bits of a word. -/
def firstWrites (w : Word) (i : Nat) : List Event := (firstBits w i).flatMap bitWrites

theorem firstWrites_succ (w : Word) (i : Nat) :
    firstWrites w (i + 1) = firstWrites w i ++ bitWrites (w.getLsbD (31 - i)) := by
  simp [firstWrites, firstBits, List.range_succ]

theorem firstWrites_length (w : Word) (i : Nat) : (firstWrites w i).length = 3 * i := by
  rw [firstWrites, length_flatMap_uniform bitWrites_length, firstBits, List.length_map, List.length_range]

theorem Sending.runs_bit_at {k : Nat} {s : State} (h : Sending k s) (hk : 96 ≤ k) (q : Pixel) (r : Registers) {i : Nat}
    (hi : i < 32) :
    Runs 3 ((played (3 * i) (firstWrites (ledWord q) i) s).withRegisters (atBit (ledWord q) r i))
      (advanceBit ((played (3 * (i + 1)) (firstWrites (ledWord q) (i + 1)) s).withRegisters (atBit (ledWord q) r i))) := by
  have hsend : Sending 3 (played (3 * i) (firstWrites (ledWord q) i) s) :=
    h.after_played _ (by rw [firstWrites_length]; omega)
  have hbit := (hsend.withRegisters (atBit (ledWord q) r i)).runs_bit rfl rfl
  have hsr : ((played (3 * i) (firstWrites (ledWord q) i) s).withRegisters (atBit (ledWord q) r i)).sr.getLsbD 7 =
      (ledWord q).getLsbD (31 - i) := atBit_bit (ledWord q) r hi
  rw [hsr, played_withRegisters, played_played, ← firstWrites_succ] at hbit
  exact hbit

/-- R104: the load of pixel `p`'s word. -/
theorem Sending.runs_load {k : Nat} {s : State} {q : Pixel} (h : Sending k s) (hp : s.phase = .fPxLoad)
    (hq : s.latch[s.p]? = some q) :
    Runs 1 s ((played 1 [] s).withRegisters (atBit (ledWord q) s.registers 0)) := by
  obtain ⟨⟨⟨hr, hx⟩, hport⟩, ⟨n, o, hc⟩, -, -⟩ := h
  obtain ⟨hlt, hrec⟩ := Vector.getElem?_eq_some_iff.mp hq
  have hfetch : encFetch (advanceTurn s) = some (ledwOf q) := hrec ▸ encFetch_load (s := advanceTurn s) hlt hp
  have hexec : exec (ledwOf q) (advanceTurn s) = _ := (whenLive_of_live hr hx).trans (inFlush_of_flush hc)
  refine .one ((step_of_onlyEncoder ⟨⟨hr, hx⟩, hport⟩ (by simp [hp])).trans ?_)
  rw [encStep_of_fetch hfetch, hexec, advanceTurn_phase, hp, ← advanceTurn_eq_played]
  exact congrArg _ (loadWord_eq_atBit q (advanceTurn s))

/-- R104 to R107: a whole command word. -/
theorem Sending.runs_word {k : Nat} {s : State} {q : Pixel} (h : Sending k s) (hk : 96 ≤ k) (hp : s.phase = .fPxLoad)
    (hq : s.latch[s.p]? = some q) :
    Runs 97 s ((played 97 (wordWrites (ledWord q)) s).withRegisters (wordSent (ledWord q) s.registers)) := by
  have hload := h.runs_load hp hq
  have hsend : Sending k (played 1 [] s) := h.after_played 1 (by simp)
  have hbits := Runs.iterate (c := 3) (m := 31)
    (f := fun i => (played (3 * i) (firstWrites (ledWord q) i) (played 1 [] s)).withRegisters
      (atBit (ledWord q) s.registers i))
    fun i hi => advanceBit_atBit (ledWord q) _ _ hi ▸ hsend.runs_bit_at hk q s.registers (hi.trans (by decide))
  have hlast := hsend.runs_bit_at hk q s.registers (i := 31) (by decide)
  rw [show played (3 * 0) (firstWrites (ledWord q) 0) _ = _ from played_zero _] at hbits
  rw [advanceBit_atBit_last, played_played 1 (3 * (31 + 1))] at hlast
  exact (hload.trans hbits).trans hlast

/-! #### The levels that writes leave (R29) -/

theorem clk_after_pulse (v : Level) (es : List Event) : (es ++ pulse).foldl (levelAfter .clk) v = .low := by
  simp [pulse, levelAfter, levelOf]

theorem dat_after_pulses (v : Level) (i : Nat) : (pulses i).foldl (levelAfter .dat) v = v := by
  induction i with
  | zero => rfl
  | succ i ih =>
    rw [pulses_succ, List.foldl_append, ih]
    rfl

theorem clk_after_framingRun (v : Level) (es : List Event) {n : Nat} (hn : 0 < n) :
    (es ++ framingRun n).foldl (levelAfter .clk) v = .low := by
  obtain ⟨n, rfl⟩ := Nat.exists_eq_succ_of_ne_zero hn.ne'
  have hlast : es ++ framingRun (n + 1) = (es ++ .wr .dat false .ok :: pulses n) ++ pulse := by
    rw [List.append_assoc, List.cons_append, ← pulses_succ]
    rfl
  rw [hlast, clk_after_pulse]

theorem dat_after_framingRun (v : Level) (es : List Event) (n : Nat) :
    (es ++ framingRun n).foldl (levelAfter .dat) v = .low := by
  rw [List.foldl_append]
  exact dat_after_pulses .low n

theorem wordWrites_eq_concat (w : Word) : wordWrites w = (firstWrites w 31 ++ [.wr .dat (w.getLsbD 0) .ok]) ++ pulse :=
  (firstWrites_succ w 31).trans (List.append_assoc _ [_] pulse).symm

theorem clk_after_wordWrites (v : Level) (w : Word) : (wordWrites w).foldl (levelAfter .clk) v = .low := by
  rw [wordWrites_eq_concat, clk_after_pulse]

theorem dat_after_wordWrites (v : Level) (w : Word) :
    (wordWrites w).foldl (levelAfter .dat) v = levelOf (w.getLsbD 0) := by
  rw [wordWrites_eq_concat, List.foldl_append, List.foldl_append]
  exact dat_after_pulses (levelOf (w.getLsbD 0)) 1

theorem clk_after_frameWrites (v : Level) (q : Pixels) : (frameWrites q).foldl (levelAfter .clk) v = .low :=
  clk_after_framingRun v _ (by decide)

theorem dat_after_frameWrites (v : Level) (q : Pixels) : (frameWrites q).foldl (levelAfter .dat) v = .low :=
  dat_after_framingRun v _ _

/-! #### A whole frame (R116) -/

theorem frameWords_take_succ (q : Pixels) {i : Nat} (hi : i < 8) :
    (frameWords q).take (i + 1) = (frameWords q).take i ++ [ledWord q[i]] := by
  rw [List.take_add_one, frameWords_getElem? q ⟨i, hi⟩]
  rfl

theorem frameWords_flatMap_wordWrites_length (q : Pixels) {i : Nat} (hi : i ≤ 8) :
    (((frameWords q).take i).flatMap wordWrites).length = 96 * i := by
  rw [length_flatMap_uniform wordWrites_length, List.length_take, frameWords_length, Nat.min_eq_left hi]

/-- R116: the words of the pixels 0 to `i`. -/
theorem Sending.runs_words {k : Nat} {s : State} (h : Sending k s) (hk : 768 ≤ k) (hp : s.phase = .fPxLoad)
    (hp0 : s.p = 0) {i : Nat} (hi : i < 8) :
    Runs (97 * (i + 1)) s
      ((played (97 * (i + 1)) (((frameWords s.latch).take (i + 1)).flatMap wordWrites) s).withRegisters
        (wordSent (ledWord s.latch[i]) { s.registers with p := i })) := by
  induction i with
  | zero =>
    have hq : s.latch[s.p]? = some s.latch[0] := by rw [hp0]; exact Vector.getElem?_eq_getElem _
    have hr : { s.registers with p := 0 } = s.registers := by rw [← hp0]; rfl
    rw [frameWords_take_succ _ hi, hr, List.take_zero, List.nil_append, List.flatMap_singleton]
    exact h.runs_word (by omega) hp hq
  | succ i ih =>
    have hi7 : i < 7 := by omega
    have hi8 : i < 8 := by omega
    have hsend := (h.after_played (m := 96) (97 * (i + 1)) (by
      rw [frameWords_flatMap_wordWrites_length s.latch hi8]; omega)).withRegisters
        (wordSent (ledWord s.latch[i]) { s.registers with p := i })
    have hq : s.latch[if i < 7 then i + 1 else i]? = some s.latch[i + 1] := by
      rw [if_pos hi7]
      exact Vector.getElem?_eq_getElem _
    have hnext := hsend.runs_word le_rfl (if_pos hi7) hq
    have hr : wordSent (ledWord s.latch[i + 1]) (wordSent (ledWord s.latch[i]) { s.registers with p := i }) =
        wordSent (ledWord s.latch[i + 1]) { s.registers with p := i + 1 } := by
      simp [wordSent, hi7]
    rw [played_withRegisters, withRegisters_withRegisters, registers_withRegisters, hr, played_played] at hnext
    rw [frameWords_take_succ _ hi, List.flatMap_append, List.flatMap_singleton]
    exact (ih hi8).trans hnext

/-- R116: the registers once the frame of `q` has been sent. -/
def frameSent (q : Pixels) : Registers where
  phase := .fDone
  cnt := 36
  p := 7
  k := 3
  j := 8
  sr := 0
  w := ledWord q[7]

/-- R116: a whole frame: the start frame, eight words, the end frame. -/
theorem Sending.runs_frame {s : State} (h : Sending 906 s) (hp : s.phase = .fSofDat) (hp0 : s.p = 0) :
    Runs 914 s ((played 914 (frameWrites s.latch) s).withRegisters (frameSent s.latch)) := by
  have hlen : ((frameWords s.latch).flatMap wordWrites).length = 768 := by
    rw [length_flatMap_uniform wordWrites_length, frameWords_length]
  have hsof := isFraming_sof.runs h (by decide) (by decide) hp
  have hsend : Sending 841 (played (1 + 2 * 32) (framingRun 32) s) := h.after_played _ (by rw [framingRun_length])
  have hwords := (hsend.withRegisters { s.registers with cnt := 32, phase := .fPxLoad }).runs_words (by decide) rfl hp0
    (i := 7) (by decide)
  simp only [withRegisters_latch, played_latch, List.take_of_length_le (frameWords_length _).le, played_withRegisters,
    withRegisters_withRegisters, registers_withRegisters] at hwords
  have hsend' := hsend.after_played (m := 73) (es := (frameWords s.latch).flatMap wordWrites) (97 * (7 + 1))
    (by rw [hlen])
  have heof := isFraming_eof.runs (hsend'.withRegisters (wordSent (ledWord s.latch[7])
    { s.registers with cnt := 32, phase := .fPxLoad, p := 7 })) (by decide) (by decide) rfl
  have hrun := hsof.trans (hwords.trans heof)
  rw [played_withRegisters, played_played, played_played, ← frameWrites_eq] at hrun
  exact hrun

end Sys2Proof.Machine

namespace Sys2Proof.Proofs

open Sys2Proof.Machine Sys2Proof.Safety

/-- Settles O53: the run of a word, its outcomes and levels written out. -/
theorem ledwRunSendsThirtyTwoBits : Obligations.LedwRunSendsThirtyTwoBits := by
  intro s n o rest h honly hp hc hb hans
  have hsend : Sending 96 s := ⟨honly, ⟨n, o, hc⟩, hb, ⟨rest, hans.symm⟩⟩
  have hrun : Sys2Proof.core.run 97 s = _ := hsend.runs_word le_rfl hp (Vector.getElem?_eq_getElem h)
  have hrest : s.answers.drop 96 = rest := by rw [hans]; exact List.drop_left' (by simp)
  rw [played, wordWrites_length, hrest, clk_after_wordWrites, dat_after_wordWrites] at hrun
  exact hrun

end Sys2Proof.Proofs

/-! ### A whole flush -/

namespace Sys2Proof.Machine

open Sys2Proof.Safety

/-- R99, R100: the acquire action a flush needs on a line. -/
def acquisition (l : Line) (s : State) : List Event := if s.hs l = .unacq then [.acq l .ok] else []

theorem setHs_of_hs {l : Line} {h : HandleState} {s : State} (hs : s.hs l = h) : setHs l h s = s := by
  subst hs
  cases l <;> rfl

theorem acquireLine_eq_played {s : State} (l : Line) (h : gpioAnswer s = .ok) :
    acquireLine l (advanceTurn s) = setHs l .acq (played 1 [.acq l .ok] s) := by
  have ha : gpioAnswer (advanceTurn s) = .ok := h
  rw [acquireLine, ha, gpioAcquire, ha]
  cases l <;> simp [played, setHs, setLvl, emit, afterDraw, advanceTurn, levelAfter]

/-- R99, R100: an unacquired line is acquired, an acquired one reused. -/
theorem acquire_or_reuse {s : State} {l : Line} (n : Nat) (next : Phase) (hrel : s.hs l ≠ .rel)
    (hoks : List.replicate (acquisition l s).length .ok <+: s.answers) :
    (if s.hs l = .unacq then
        .next (afterAcquire n l next (gpioAnswer (advanceTurn s)) (acquireLine l (advanceTurn s)))
      else .next { advanceTurn s with phase := next } : Result) =
      .next (setHs l .acq { played 1 (acquisition l s) s with phase := next }) := by
  cases hl : s.hs l with
  | unacq =>
    rw [acquisition, if_pos hl] at hoks ⊢
    have hok : gpioAnswer s = .ok := gpioAnswer_of_oks hoks Nat.one_pos
    have hok' : gpioAnswer (advanceTurn s) = .ok := hok
    rw [if_pos rfl, hok', afterAcquire_ok, acquireLine_eq_played l hok]
    cases l <;> rfl
  | acq =>
    have hheld : State.hs { played 1 [] s with phase := next } l = .acq := by cases l <;> exact hl
    rw [acquisition, hl, if_neg (by decide), if_neg (by decide), setHs_of_hs hheld, advanceTurn_eq_played]
  | rel => exact absurd hl hrel

theorem encStep_of_fStart {s : State} (hp : s.phase = .fStart) : encStep s = encStart s := by
  simp [encStep, encFetch, encInternal, hp]

theorem encStep_of_fAcqClk {s : State} (hp : s.phase = .fAcqClk) : encStep s = encAcqClk s := by
  simp [encStep, encFetch, encInternal, hp]

theorem encStep_of_fAcqDat {s : State} (hp : s.phase = .fAcqDat) : encStep s = encAcqDat s := by
  simp [encStep, encFetch, encInternal, hp]

theorem encStep_of_fDone {s : State} (hp : s.phase = .fDone) : encStep s = encDone s := by
  simp [encStep, encFetch, encInternal, hp]

/-- R98: `F_START`. -/
theorem runs_start {s : State} {n : Nat} {o : Origin} (h : OnlyEncoder s) (hp : s.phase = .fStart)
    (hc : s.cur = some (.flush n o)) :
    Runs 1 s { played 1 [] s with latch := s.buf, p := 0, phase := .fAcqClk } := by
  refine .one ((step_of_onlyEncoder h (by simp [hp])).trans ?_)
  rw [encStep_of_fStart (s := advanceTurn s) hp, ← advanceTurn_eq_played]
  exact inFlush_of_flush hc

/-- R99: `F_ACQ_CLK` with no line released, its acquisition succeeding if it is needed. -/
theorem runs_acqClk {s : State} {n : Nat} {o : Origin} (h : OnlyEncoder s) (hp : s.phase = .fAcqClk)
    (hc : s.cur = some (.flush n o)) (hclk : s.hsClk ≠ .rel) (hdat : s.hsDat ≠ .rel)
    (hoks : List.replicate (acquisition .clk s).length .ok <+: s.answers) :
    Runs 1 s (setHs .clk .acq { played 1 (acquisition .clk s) s with phase := .fAcqDat }) := by
  refine .one ((step_of_onlyEncoder h (by simp [hp])).trans ?_)
  have hflush : encAcqClk (advanceTurn s) = _ := inFlush_of_flush hc
  rw [encStep_of_fAcqClk (s := advanceTurn s) hp, hflush, if_neg (by simp [hclk, hdat])]
  exact acquire_or_reuse (l := .clk) n .fAcqDat hclk hoks

/-- R100: `F_ACQ_DAT` of a line not released, its acquisition succeeding if it is needed. -/
theorem runs_acqDat {s : State} {n : Nat} {o : Origin} (h : OnlyEncoder s) (hp : s.phase = .fAcqDat)
    (hc : s.cur = some (.flush n o)) (hdat : s.hsDat ≠ .rel)
    (hoks : List.replicate (acquisition .dat s).length .ok <+: s.answers) :
    Runs 1 s (setHs .dat .acq { played 1 (acquisition .dat s) s with phase := .fSofDat }) := by
  refine .one ((step_of_onlyEncoder h (by simp [hp])).trans ?_)
  have hflush : encAcqDat (advanceTurn s) = _ := inFlush_of_flush hc
  rw [encStep_of_fAcqDat (s := advanceTurn s) hp, hflush]
  exact acquire_or_reuse (l := .dat) n .fSofDat hdat hoks

/-- R98 to R100: the state at the start frame: the snapshot taken, both lines held. -/
def opened (s : State) : State :=
  { played 3 (acquisition .clk s ++ acquisition .dat s) s with
    hsClk := .acq, hsDat := .acq, latch := s.buf, p := 0, phase := .fSofDat }

/-- R98 to R100: with no line released, a flush opens its frame. -/
theorem runs_opened {s : State} {n k : Nat} {o : Origin} (h : OnlyEncoder s) (hp : s.phase = .fStart)
    (hc : s.cur = some (.flush n o)) (hclk : s.hsClk ≠ .rel) (hdat : s.hsDat ≠ .rel)
    (hoks : List.replicate ((acquisition .clk s ++ acquisition .dat s).length + k) .ok <+: s.answers) :
    Runs 3 s (opened s) ∧ Sending k (opened s) := by
  rw [List.length_append] at hoks
  have hclkOks : List.replicate (acquisition .clk s).length .ok <+: s.answers :=
    oks_drop (d := 0) hoks (by omega)
  have hdatOks : List.replicate (acquisition .dat s).length .ok <+: s.answers.drop (acquisition .clk s).length :=
    oks_drop hoks (by omega)
  have hstart := runs_start h hp hc
  have hacq := runs_acqClk (s := { played 1 [] s with latch := s.buf, p := 0, phase := .fAcqClk }) h rfl hc hclk hdat
    hclkOks
  have hacq' := runs_acqDat (s := setHs .clk .acq { played 1 (acquisition .clk s)
    { played 1 [] s with latch := s.buf, p := 0, phase := .fAcqClk } with phase := .fAcqDat }) h rfl hc hdat hdatOks
  have hplayed : played 1 (acquisition .dat s) (played 1 (acquisition .clk s) (played 1 [] s)) =
      played 3 (acquisition .clk s ++ acquisition .dat s) s := by
    rw [played_played, played_played, List.nil_append]
  refine ⟨?_, h, ⟨n, o, hc⟩, ⟨rfl, rfl⟩, ?_⟩
  · rw [opened, ← hplayed]
    exact hstart.trans (hacq.trans hacq')
  · exact oks_drop hoks (by rw [List.length_append])

/-- R111: `F_DONE`. -/
theorem runs_done {s : State} {n : Nat} {o : Origin} (h : OnlyEncoder s) (hp : s.phase = .fDone)
    (hc : s.cur = some (.flush n o)) : Runs 1 s (endJob n .ok (advanceTurn s)) := by
  refine .one ((step_of_onlyEncoder h (by simp [hp])).trans ?_)
  rw [encStep_of_fDone (s := advanceTurn s) hp]
  exact inFlush_of_flush hc

end Sys2Proof.Machine

namespace Sys2Proof.Proofs

open Sys2Proof.Machine Sys2Proof.Safety

/-- Settles O55: the frame is opened, sent and reported; its outcomes and levels written out. -/
theorem flushSendsTheWholeFrame : Obligations.FlushSendsTheWholeFrame := by
  intro s n o rest acqs h hp hc hclk hdat hacqs hans
  obtain rfl : acqs = acquisition .clk s ++ acquisition .dat s := hacqs
  obtain ⟨hopen, hsend⟩ := runs_opened h hp hc hclk hdat (k := 906) ⟨rest, hans.symm⟩
  have hframe := hsend.runs_frame rfl rfl
  have hdone := runs_done (s := (played 914 (frameWrites s.buf) (opened s)).withRegisters (frameSent s.buf)) h rfl hc
  have hrun : Runs 918 s _ := (hopen.trans hframe).trans hdone
  have hanswers : (opened s).answers.drop (frameWrites s.buf).length = rest := by
    rw [opened, played, List.drop_drop, frameWrites_length, hans]
    exact List.drop_left' (by simp)
  have hdraws : (opened s).draws + (frameWrites s.buf).length =
      s.draws + ((acquisition .clk s ++ acquisition .dat s).length + 906) := by
    rw [frameWrites_length]
    exact Nat.add_assoc _ _ _
  rw [played, clk_after_frameWrites, dat_after_frameWrites, hanswers, hdraws] at hrun
  exact hrun

end Sys2Proof.Proofs

/-! ### The encodings: decoder and encoder, and commands that do not decode -/

namespace Sys2Proof.Machine

/-! #### The command port (R57 to R60, R73) -/

/-- R60: the opcode map has an arity and an instruction for the same opcodes. -/
theorem instrOfOpcode_isSome (c : RawCommand) : (instrOfOpcode c).isSome = (arity c.op).isSome := by
  unfold instrOfOpcode arity
  split <;> rfl

/-- R59, R60: a command decodes to its opcode's instruction when every slot beyond the opcode's arity is absent. -/
theorem decodeCommand_eq_ok {c : RawCommand} {i : Instr} :
    decodeCommand c = .ok i ↔ ∃ n, instrOfOpcode c = some i ∧ arity c.op = some n ∧ c.absentFrom n = true := by
  have hsame := instrOfOpcode_isSome c
  unfold decodeCommand
  cases instrOfOpcode c <;> cases arity c.op
  case some.some => simp [ite_eq_iff, and_comm]
  all_goals simp_all

/-- R73: a command whose opcode has no arity has a reserved opcode. -/
theorem decodeCommand_of_reserved {c : RawCommand} (h : arity c.op = none) :
    decodeCommand c = .error .reservedOpcode := by
  unfold decodeCommand
  rw [h]
  cases instrOfOpcode c <;> rfl

/-- R59: a slot beyond the arity that is not absent refuses the command. -/
theorem decodeCommand_of_beyondArity {c : RawCommand} {n : Nat} (h : arity c.op = some n)
    (habs : c.absentFrom n = false) : decodeCommand c = .error .beyondArity := by
  have hsome : (instrOfOpcode c).isSome = true := by rw [instrOfOpcode_isSome, h]; rfl
  obtain ⟨i, hi⟩ := Option.isSome_iff_exists.mp hsome
  simp [decodeCommand, hi, h, habs]

/-- R73: the opcodes 0x00 and from 0x0B on are reserved. -/
theorem arity_of_reserved {op : Byte} (h : op = 0x00 ∨ 0x0B ≤ op) : arity op = none := by
  have hnat : op.toNat = 0 ∨ 11 ≤ op.toNat := by
    obtain rfl | h := h
    · exact .inl rfl
    · exact .inr h
  unfold arity
  split
  on_goal -1 => rfl
  all_goals omega

/-- R60: a command that decodes is the encoding of its instruction: its opcode names it, its operands are the instruction's,
and the slots beyond are absent in both. -/
theorem encode_of_decodeCommand {c : RawCommand} {i : Instr} (h : decodeCommand c = .ok i) : encode i = .command c := by
  obtain ⟨n, hi, hn, habs⟩ := decodeCommand_eq_ok.mp h
  obtain ⟨src, op, a0, a1, a2, a3, a4⟩ := c
  unfold instrOfOpcode at hi
  split at hi <;> cases hi
  all_goals
    have hop := congrArg (BitVec.ofNat 8) ‹op.toNat = _›
    rw [BitVec.ofNat_toNat, BitVec.setWidth_eq] at hop
    subst hop
    cases hn
    simp_all [encode, RawCommand.absentFrom, RawCommand.slots]

/-! #### The wire and the GPIO events (R67 to R70, R75, R77) -/

/-- R67, R69: a 32-bit word that decodes is the start frame or the word of its own fields. -/
theorem encode_of_decodeWire32 {w : Word} {i : Instr} (h : decodeWire32 w = .ok i) : encode i = .wire32 w := by
  unfold decodeWire32 at h
  split at h
  · cases h
    exact congrArg Encoded.wire32 (Eq.symm ‹w = 0›)
  · split at h <;> cases h
    exact congrArg Encoded.wire32 (ledWordBits_fields w ‹_›)

/-- R67: the word of given fields decodes to them. -/
theorem decodeWire32_ledWordBits (br : Level5) (b g r : Byte) :
    decodeWire32 (ledWordBits br b g r) = .ok (.ledw br b g r) := by
  rw [← ledWord_eq_bits ⟨r, g, b, br⟩, decodeWire32_ledWord]

/-- R70: a 36-bit word that decodes is the end frame. -/
theorem encode_of_decodeWire36 {w : BitVec 36} {i : Instr} (h : decodeWire36 w = .ok i) : encode i = .wire36 w := by
  unfold decodeWire36 at h
  split at h <;> cases h
  exact congrArg Encoded.wire36 (Eq.symm ‹w = 0›)

/-- R77: a GPIO event that decodes is the encoding of its action: all 16 events. -/
theorem encode_of_decodeGpioEvent {e : BitVec 4} {i : Instr} (h : decodeGpioEvent e = .ok i) :
    encode i = .gpioEvent e := by
  obtain ⟨e⟩ := e
  fin_cases e <;> cases h <;> rfl

end Sys2Proof.Machine

namespace Sys2Proof.Proofs

open Sys2Proof.Machine

/-- Settles O7: format by format; a command's own row gives its arity, and its further slots are absent. -/
theorem decodeEncodeAgree : Obligations.DecodeEncodeAgree := by
  intro i
  cases i with
  | sof => rfl
  | eof => rfl
  | ledw br b g r => exact decodeWire32_ledWordBits br b g r
  | gpioAcq l => cases l <;> rfl
  | gpioWr l v => cases l <;> cases v <;> rfl
  | gpioRel l => cases l <;> rfl
  | _ =>
    rw [encode, decode, decodeCommand_eq_ok]
    exact ⟨_, rfl, rfl, rfl⟩

/-- Settles O8: format by format. -/
theorem encodeDecodeAgree : Obligations.EncodeDecodeAgree := by
  intro e i h
  cases e with
  | command c => exact encode_of_decodeCommand h
  | wire32 w => exact encode_of_decodeWire32 h
  | wire36 w => exact encode_of_decodeWire36 h
  | gpioEvent e => exact encode_of_decodeGpioEvent h

/-- Settles O9: the word of LEDW is that of its fields, the others are read off the tables. -/
theorem specWordsDecode : Obligations.SpecWordsDecode :=
  ⟨rfl, rfl, decodeWire32_ledWordBits 31 0 0 255, decodeWire32_ledWordBits 4 3 2 1, rfl, rfl, rfl, rfl, rfl, rfl⟩

end Sys2Proof.Proofs

/-! ### Commands that do not decode are refused -/

namespace Sys2Proof.Machine

open Sys2Proof.Safety

/-- R59, R73, R147: the step that takes a command which does not decode records one of the reasons that refuse it, and writes
nothing else but the port and the turn. -/
theorem step_of_undecodable {c : RawCommand} {e : DecodeError} {s : State} (hl : Live s)
    (hc : chooseAgent s = some (.issuer c)) (hd : decodeCommand c = .error e) :
    ∃ r ∈ decodeReason e :: furtherReasons c s,
      step s = .next { s with refused := some r, port := s.port.erase c, turn := s.turn + 1 } := by
  obtain ⟨r, hr, hrefuse⟩ := refuseWith_eq (decodeReason e) (furtherReasons c s) (takeCommand c s)
  refine ⟨r, hr, ?_⟩
  rw [step_of_issuer hl hc, issueStep, hd]
  exact congrArg _ hrefuse

/-- R65, R146: when a further reason applies. -/
theorem mem_furtherReasons {c : RawCommand} {s : State} {r : RefReason} (hl : Live s) (h : r ∈ furtherReasons c s) :
    (r = .bool ∧ s.xs = .notStarted ∧ c.op = 0x06 ∧ chkBoolOpt c.a0 = none) ∨
      (r = .afterExit ∧ s.xs = .running ∧ c.op ≠ 0x0A) := by
  unfold furtherReasons at h
  split at h
  · rename_i hx
    split at h
    · rename_i hbool
      exact .inl ⟨List.mem_singleton.mp h, hx, hbool⟩
    · cases h
  · rename_i hx
    have hrun : s.xs = .running := by
      obtain ⟨-, hdone⟩ := hl
      cases hs : s.xs <;> simp_all
    split at h
    · exact .inr ⟨List.mem_singleton.mp h, hrun, ‹_›⟩
    · cases h

end Sys2Proof.Machine

namespace Sys2Proof.Proofs

open Sys2Proof.Machine Sys2Proof.Safety

/-- Settles O10: a reserved opcode has no arity, and it is not SET_CLEAR_ON_EXIT's. -/
theorem reservedOpcodeRefused : Obligations.ReservedOpcodeRefused := by
  intro c s hop hl hc
  have harity := arity_of_reserved hop
  have hd := decodeCommand_of_reserved harity
  obtain ⟨r, hr, hstep⟩ := step_of_undecodable hl hc hd
  refine ⟨hd, r, hstep, ?_⟩
  obtain rfl | hr := List.mem_cons.mp hr
  · exact .inl rfl
  · obtain ⟨-, -, h6, -⟩ | ⟨hr, hx, -⟩ := mem_furtherReasons hl hr
    · rw [h6] at harity
      cases harity
    · exact .inr ⟨hr, hx⟩

/-- Settles O11: the command's opcode has an arity that one of its slots goes beyond. -/
theorem operandBeyondArityRefused : Obligations.OperandBeyondArityRefused := by
  intro c n s harity habs hl hc
  have hd := decodeCommand_of_beyondArity harity habs
  obtain ⟨r, hr, hstep⟩ := step_of_undecodable hl hc hd
  refine ⟨hd, r, hstep, ?_⟩
  obtain rfl | hr := List.mem_cons.mp hr
  · exact .inl rfl
  · exact .inr (mem_furtherReasons hl hr)

end Sys2Proof.Proofs

/-! ### The colour and brightness checks, against the numbers the operands stand for -/

namespace Sys2Proof.Machine

open Sys2Proof.Safety

/-- R62, R64: a value that stands for a number from 0 to `n` passes the model's range check, and the number is its units. -/
theorem finite_of_binary64Real_le {x : Binary64} {q : ℚ} {n : ℕ} (h : binary64Real x = some q) (h0 : 0 ≤ q) (hn : q ≤ n) :
    ∃ neg u, fpValue x = .finite neg u ∧ (atLeastZero neg u = true ∧ u ≤ n * oneUnits) ∧ q = (u : ℚ) / oneUnits := by
  obtain ⟨neg, u, hx, hneg, rfl⟩ := finite_of_binary64Real_nonneg h h0
  rw [div_le_iff₀ oneUnits_pos] at hn
  exact ⟨neg, u, hx, ⟨hneg, by exact_mod_cast hn⟩, rfl⟩

/-- R62, R64: a finite value that passes the range check stands for a number from 0 to `n`. -/
theorem binary64Real_of_range {x : Binary64} {neg : Bool} {u n : ℕ} (hx : fpValue x = .finite neg u)
    (h : atLeastZero neg u = true ∧ u ≤ n * oneUnits) : ∃ q, binary64Real x = some q ∧ 0 ≤ q ∧ q ≤ n := by
  obtain ⟨hneg, hu⟩ := h
  have hsign : withSign neg u = u := by
    cases neg
    · rfl
    · obtain rfl : u = 0 := by simpa [atLeastZero] using hneg
      rfl
  have hreal := binary64Real_of_finite hx
  rw [hsign, Int.cast_natCast] at hreal
  refine ⟨_, hreal, div_nonneg (Nat.cast_nonneg _) oneUnits_pos.le, ?_⟩
  rw [div_le_iff₀ oneUnits_pos]
  exact_mod_cast hu

/-- R66: the mask of `col8` takes nothing away. -/
theorem col8_toNat {u : ℕ} (h : u ≤ 255 * oneUnits) : (col8 u).toNat = u / oneUnits := by
  have hle : u / oneUnits ≤ 255 := Nat.div_le_of_le_mul (by rwa [mul_comm])
  rw [col8, floorUnits, BitVec.toNat_ofNat, Nat.mod_eq_of_lt (by omega)]

theorem chkColour_of_finite {x : Binary64} {neg : Bool} {u : ℕ} (hx : fpValue x = .finite neg u)
    (h : atLeastZero neg u = true ∧ u ≤ 255 * oneUnits) : chkColour (.num x) = .ok (col8 u) := by
  simp only [chkColour, hx]
  exact if_pos h

/-- R62: NaN, the infinities and the finite values that fail the range check are out of range. -/
theorem chkColour_of_not_range {x : Binary64}
    (h : ∀ neg u, fpValue x = .finite neg u → ¬ (atLeastZero neg u = true ∧ u ≤ 255 * oneUnits)) :
    chkColour (.num x) = .bad ⟨.range, .colour⟩ [] := by
  cases hx : fpValue x with
  | finite neg u =>
    simp only [chkColour, hx]
    exact if_neg (h neg u hx)
  | inf neg => simp only [chkColour, hx]
  | nan => simp only [chkColour, hx]

/-- R64: NaN, the infinities and the finite values that fail the range check are out of range. -/
theorem chkBrReq_of_not_range {x : Binary64}
    (h : ∀ neg u, fpValue x = .finite neg u → ¬ (atLeastZero neg u = true ∧ u ≤ oneUnits)) :
    chkBrReq (.num x) = .bad ⟨.range, .brightness⟩ [] := by
  cases hx : fpValue x with
  | finite neg u =>
    simp only [chkBrReq, chkBrNum, hx]
    exact if_neg (h neg u hx)
  | inf neg => simp only [chkBrReq, chkBrNum, hx]
  | nan => simp only [chkBrReq, chkBrNum, hx]

/-- R63, R64: on a number the two brightness checks agree. -/
theorem chkBrOpt_of_chkBrReq_ok {x : Binary64} {n : Level5} (h : chkBrReq (.num x) = .ok n) :
    chkBrOpt (.num x) = .ok (some n) := by
  have hnum : chkBrNum x = .ok n := h
  simp only [chkBrOpt, hnum]

theorem chkBrOpt_of_chkBrReq_bad {x : Binary64} {f : Failure} {fs : List Failure} (h : chkBrReq (.num x) = .bad f fs) :
    chkBrOpt (.num x) = .bad f fs := by
  have hnum : chkBrNum x = .bad f fs := h
  simp only [chkBrOpt, hnum]

end Sys2Proof.Machine

namespace Sys2Proof.Proofs

open Sys2Proof.Machine Sys2Proof.Safety

/-- Settles O24: a value passes the range check exactly when it stands for a number from 0 to 255, and `col8` is its floor. -/
theorem colourCheckFollowsTheNumber : Obligations.ColourCheckFollowsTheNumber := by
  refine ⟨fun a ha => ?_, fun x q hx h0 h255 => ?_, fun x hx => chkColour_of_not_range fun neg u hfin hu => ?_⟩
  · cases a with
    | num x => exact absurd rfl (ha x)
    | _ => rfl
  · obtain ⟨neg, u, hfin, hu, rfl⟩ := finite_of_binary64Real_le (n := 255) hx h0 (by exact_mod_cast h255)
    refine ⟨col8 u, chkColour_of_finite hfin hu, ?_⟩
    rw [Rat.floor_natCast_div_natCast, col8_toNat hu.2]
    rfl
  · obtain ⟨q, hq, h0, h255⟩ := binary64Real_of_range hfin hu
    exact hx q hq ⟨h0, by exact_mod_cast h255⟩

/-- Settles O25: a value passes the range check exactly when it stands for a number from 0 to 1, and there the checks agree. -/
theorem brightnessChecksFollowTheNumber : Obligations.BrightnessChecksFollowTheNumber := by
  refine ⟨rfl, rfl, fun a ha => ?_, fun x q hx h0 h1 => ?_, fun x hx => ?_⟩
  · obtain rfl | ⟨b, rfl⟩ := ha <;> exact ⟨rfl, rfl⟩
  · obtain ⟨neg, u, hfin, ⟨hneg, hu⟩, -⟩ := finite_of_binary64Real_le (n := 1) hx h0 (by exact_mod_cast h1)
    have hok := chkBrReq_of_finite hfin hneg (hu.trans_eq (Nat.one_mul _))
    exact ⟨br5 u, hok, chkBrOpt_of_chkBrReq_ok hok⟩
  · have hbad : chkBrReq (.num x) = .bad ⟨.range, .brightness⟩ [] := by
      refine chkBrReq_of_not_range fun neg u hfin hu => ?_
      obtain ⟨hneg, hu⟩ := hu
      obtain ⟨q, hq, h0, h1⟩ := binary64Real_of_range hfin ⟨hneg, hu.trans_eq (Nat.one_mul _).symm⟩
      exact hx q hq ⟨h0, by exact_mod_cast h1⟩
    exact ⟨hbad, chkBrOpt_of_chkBrReq_bad hbad⟩

end Sys2Proof.Proofs

/-! ### SET_ALL and SET_PIXEL in sequence, SET_CLEAR_ON_EXIT -/

namespace Sys2Proof.Machine

open Sys2Proof.Safety

/-- R82, R88: painting a record twice is painting it once. -/
theorem painted_painted (c : Byte × Byte × Byte) (v : Option Level5) (q : Pixel) :
    painted c v (painted c v q) = painted c v q := by
  cases v <;> rfl

/-- R80: the checks of three colours and a brightness that each pass. -/
theorem paintChecks_of_ok {a1 a2 a3 a4 : HostValue} {r g b : Byte} {v : Option Level5} (h1 : chkColour a1 = .ok r)
    (h2 : chkColour a2 = .ok g) (h3 : chkColour a3 = .ok b) (h4 : chkBrOpt a4 = .ok v) :
    bothChecked (chkColours a1 a2 a3) (chkBrOpt a4) = .ok ((r, g, b), v) := by
  rw [chkColours, h1, h2, h3, h4]
  rfl

/-- R88: an accepted SET_ALL whose operands pass paints every record. -/
theorem exec_setAll_of_ok {src : Source} {a1 a2 a3 a4 : HostValue} {c : Byte × Byte × Byte} {v : Option Level5} {s : State}
    (hs : Accepting s) (h : bothChecked (chkColours a1 a2 a3) (chkBrOpt a4) = .ok (c, v)) :
    exec (.setAll src a1 a2 a3 a4) s =
      .next (emit (.ret src .setAll .unit) { s with buf := mapPixels (painted c v) s.buf }) := by
  have hexec : exec (.setAll src a1 a2 a3 a4) s = _ := accept_of_accepting hs.1 hs.2
  rw [hexec, h]

/-- R90: an accepted SET_PIXEL whose operands pass paints one record. -/
theorem exec_setPixel_of_ok {src : Source} {a0 a1 a2 a3 a4 : HostValue} {i : Fin Config.pixels} {c : Byte × Byte × Byte}
    {v : Option Level5} {s : State} (hs : Accepting s) (h0 : chkIndex a0 = .ok i)
    (h : bothChecked (chkColours a1 a2 a3) (chkBrOpt a4) = .ok (c, v)) :
    exec (.setPixel src a0 a1 a2 a3 a4) s =
      .next (emit (.ret src .setPixel .unit) (bufWrite i (painted c v s.buf[i]) s)) := by
  have hexec : exec (.setPixel src a0 a1 a2 a3 a4) s = _ := accept_of_accepting hs.1 hs.2
  rw [hexec, h0, h]
  rfl

/-- R89: SET_PIXEL for each index of a list paints the records of those indexes. -/
theorem setEach_of_ok {src : Source} {idx : Fin Config.pixels → HostValue} {a1 a2 a3 a4 : HostValue}
    {c : Byte × Byte × Byte} {v : Option Level5} (hidx : ∀ i, chkIndex (idx i) = .ok i)
    (h : bothChecked (chkColours a1 a2 a3) (chkBrOpt a4) = .ok (c, v)) (is : List (Fin Config.pixels)) {s : State}
    (hs : Accepting s) :
    ∃ u, setEach src idx a1 a2 a3 a4 is s = some u ∧
      ∀ m : Fin Config.pixels, u.buf[m] = if m ∈ is then painted c v s.buf[m] else s.buf[m] := by
  induction is generalizing s with
  | nil => exact ⟨s, rfl, fun m => by simp⟩
  | cons i is ih =>
    have hone := exec_setPixel_of_ok (src := src) hs (hidx i) h
    obtain ⟨u, hu, hbuf⟩ := ih (s := emit (.ret src .setPixel .unit) (bufWrite i (painted c v s.buf[i]) s)) hs
    refine ⟨u, by rw [setEach, hone]; exact hu, fun m => ?_⟩
    rw [hbuf, emit_buf, bufWrite_get]
    by_cases hm : m = i
    · subst hm
      simp [painted_painted]
    · simp [hm]

end Sys2Proof.Machine

namespace Sys2Proof.Proofs

open Sys2Proof.Machine Sys2Proof.Safety

/-- Settles O30: both paint every record, SET_PIXEL because the list holds every index. -/
theorem setAllEqualsSetPixelInSequence : Obligations.SetAllEqualsSetPixelInSequence := by
  intro src idx a1 a2 a3 a4 r g b v s hs hidx h1 h2 h3 h4
  have hok := paintChecks_of_ok h1 h2 h3 h4
  obtain ⟨u, hu, hbuf⟩ := setEach_of_ok (src := src) hidx hok (List.finRange Config.pixels) hs
  refine ⟨_, u, exec_setAll_of_ok hs hok, hu, Vector.ext fun m hm => ?_⟩
  have hpixel := hbuf ⟨m, hm⟩
  rw [if_pos (List.mem_finRange _)] at hpixel
  exact (mapPixels_getElem _ _ m hm).trans hpixel.symm

/-- Settles O34: an accepted command does what its operand's check says. -/
theorem setClearOnExitStoresOrIsRefused : Obligations.SetClearOnExitStoresOrIsRefused := by
  rintro src s ⟨hr, hx⟩
  exact ⟨fun _ => accept_of_accepting hr hx, accept_of_accepting hr hx, accept_of_accepting hr hx,
    fun _ => accept_of_accepting hr hx⟩

end Sys2Proof.Proofs

/-! ### The frame instructions, step by step -/

namespace Sys2Proof.Machine

open Sys2Proof.Safety

/-- R29, R38, R145: the state after a successful write: the level driven, the event shown, the outcome used up. -/
def wrote (l : Line) (v : Bool) (s : State) : State :=
  setLvl l (levelOf v) { s with
    trace := s.trace ++ [.wr l v .ok], answers := s.answers.tail, draws := s.draws + 1 }

theorem gpioWrite_of_ok {l : Line} {v : Bool} {s : State} (h : gpioAnswer s = .ok) : gpioWrite l v s = wrote l v s := by
  rw [gpioWrite, h]
  rfl

/-- R101 to R110: the frame instruction of a write phase whose write succeeds. -/
theorem exec_of_write_ok {s : State} {l : Line} {v : Bool} {f : State → State} {i : Instr} {n : Nat} {o : Origin}
    (hw : WriteAt s l v f) (hi : encFetch s = some i) (hl : Live s) (hc : s.cur = some (.flush n o)) (hb : bothHeld s)
    (hok : gpioAnswer s = .ok) : exec i s = .next (f (wrote l v s)) := by
  obtain ⟨hclk, hdat⟩ := hb
  have hheld : s.hs l = .acq := by cases l <;> assumption
  rw [exec_of_writeAt hw hi hl hc, writePhase_of_acq hheld, hok, gpioWrite_of_ok hok]

/-- R69, R70: the three steps of a framing run of `total` pulses, each write successful. -/
theorem IsFraming.exec_steps {total : Nat} {dat hi lo done : Phase} (hf : IsFraming total dat hi lo done) {i : Instr}
    {s : State} {n : Nat} {o : Origin} (hfetch : s.phase = dat ∨ s.phase = hi ∨ s.phase = lo → encFetch s = some i)
    (hl : Live s) (hc : s.cur = some (.flush n o)) (hb : bothHeld s) (hok : gpioAnswer s = .ok) :
    (s.phase = dat → exec i s = .next (startPulses hi (wrote .dat false s))) ∧
    (s.phase = hi → exec i s = .next { wrote .clk true s with phase := lo }) ∧
    (s.phase = lo → exec i s = .next (countPulse total hi done (wrote .clk false s))) :=
  ⟨fun hp => exec_of_write_ok (hf.dat_write s hp) (hfetch (.inl hp)) hl hc hb hok,
    fun hp => exec_of_write_ok (hf.hi_write s hp) (hfetch (.inr (.inl hp))) hl hc hb hok,
    fun hp => exec_of_write_ok (hf.lo_write s hp) (hfetch (.inr (.inr hp))) hl hc hb hok⟩

/-- R104: LEDW in the load phase loads the word of its fields. -/
theorem exec_ledwOf_load {s : State} {n : Nat} {o : Origin} (q : Pixel) (hl : Live s) (hc : s.cur = some (.flush n o))
    (hp : s.phase = .fPxLoad) : exec (ledwOf q) s = .next (loadWord q s) := by
  have hexec : exec (ledwOf q) s = _ := (whenLive_of_live hl.1 hl.2).trans (inFlush_of_flush hc)
  rw [hexec, hp]

end Sys2Proof.Machine

namespace Sys2Proof.Proofs

open Sys2Proof.Machine Sys2Proof.Safety

/-- Settles O42: the start frame is a framing run of 32 pulses. -/
theorem sofStepsSendTheStartFrame : Obligations.SofStepsSendTheStartFrame :=
  fun _ _ _ hl hc hb hok => isFraming_sof.exec_steps encFetch_sof hl hc hb hok

/-- Settles O44: the end frame is a framing run of 36 pulses. -/
theorem eofStepsSendTheEndFrame : Obligations.EofStepsSendTheEndFrame :=
  fun _ _ _ hl hc hb hok => isFraming_eof.exec_steps encFetch_eof hl hc hb hok

/-- Settles O43: the load, the three writes of a bit, and after the last of them the four ways to go on. -/
theorem ledwStepsSendTheWord : Obligations.LedwStepsSendTheWord := by
  intro s n o q hl hc
  refine ⟨exec_ledwOf_load q hl hc, fun hb hok hw => ⟨fun hp => ?_, fun hp => ?_, fun hp => ?_⟩⟩
  · exact exec_of_write_ok (.bitDat hp) (encFetch_bit hw (.inl hp)) hl hc hb hok
  · exact exec_of_write_ok (.bitHi hp) (encFetch_bit hw (.inr (.inl hp))) hl hc hb hok
  · refine ⟨_, exec_of_write_ok (.bitLo hp) (encFetch_bit hw (.inr (.inr hp))) hl hc hb hok, ?_⟩
    obtain ⟨hj, e⟩ | ⟨hj, hk, e⟩ | ⟨hj, hk, hp, e⟩ | ⟨hj, hk, hp, e⟩ := advanceBit_cases (wrote .clk false s) <;> rw [e]
    · exact ⟨rfl, fun _ => ⟨rfl, rfl, rfl, rfl, rfl⟩, fun h => absurd hj (not_lt.mpr h), fun h => absurd hj (not_lt.mpr h),
        fun h => absurd hj (not_lt.mpr h)⟩
    · exact ⟨rfl, fun h => absurd h (not_lt.mpr hj), fun _ _ => ⟨rfl, rfl, rfl, rfl, rfl⟩,
        fun _ h => absurd hk (not_lt.mpr h), fun _ h => absurd hk (not_lt.mpr h)⟩
    · exact ⟨rfl, fun h => absurd h (not_lt.mpr hj), fun _ h => absurd h (not_lt.mpr hk),
        fun _ _ _ => ⟨rfl, rfl, rfl, rfl, rfl⟩, fun _ _ h => absurd hp (not_lt.mpr h)⟩
    · exact ⟨rfl, fun h => absurd h (not_lt.mpr hj), fun _ h => absurd h (not_lt.mpr hk),
        fun _ _ h => absurd h (not_lt.mpr hp), fun _ _ _ => ⟨rfl, rfl, rfl, rfl, rfl⟩⟩

end Sys2Proof.Proofs

/-! ### Runs of the start and the end frame -/

namespace Sys2Proof.Machine

open Sys2Proof.Safety

/-- R69, R70: a whole framing run, its outcomes and levels written out. -/
theorem IsFraming.core_run {total : Nat} {dat hi lo done : Phase} (hf : IsFraming total dat hi lo done)
    (hpos : 0 < total) {s : State} {n : Nat} {o : Origin} {rest : List GpioOutcome} (h : OnlyEncoder s)
    (hp : s.phase = dat) (hc : s.cur = some (.flush n o)) (hb : bothHeld s)
    (hans : s.answers = List.replicate (2 * total + 1) .ok ++ rest) :
    Sys2Proof.core.run (1 + 2 * total) s = .next { s with
      lvlClk := .low, lvlDat := .low, cnt := total, phase := done, trace := s.trace ++ framingRun total,
      answers := rest, draws := s.draws + (2 * total + 1), turn := s.turn + (1 + 2 * total) } := by
  have hsend : Sending (2 * total + 1) s := ⟨h, ⟨n, o, hc⟩, hb, ⟨rest, hans.symm⟩⟩
  have hrun : Sys2Proof.core.run (1 + 2 * total) s = _ := hf.runs hsend (Nat.add_comm _ _).le hpos hp
  have hclk : (framingRun total).foldl (levelAfter .clk) s.lvlClk = .low := clk_after_framingRun _ [] hpos
  have hdat : (framingRun total).foldl (levelAfter .dat) s.lvlDat = .low := dat_after_framingRun _ [] total
  have hrest : s.answers.drop (2 * total + 1) = rest := by rw [hans]; exact List.drop_left' (by simp)
  rw [played, framingRun_length, hclk, hdat, hrest] at hrun
  exact hrun

end Sys2Proof.Machine

namespace Sys2Proof.Proofs

open Sys2Proof.Machine Sys2Proof.Safety

/-- Settles O52: the framing run of 32 pulses. -/
theorem sofRunSendsThirtyTwoPulses : Obligations.SofRunSendsThirtyTwoPulses :=
  fun _ _ _ _ h hp hc hb hans => isFraming_sof.core_run (by decide) h hp hc hb hans

/-- Settles O54: the framing run of 36 pulses. -/
theorem eofRunSendsThirtySixPulses : Obligations.EofRunSendsThirtySixPulses :=
  fun _ _ _ _ h hp hc hb hans => isFraming_eof.core_run (by decide) h hp hc hb hans

end Sys2Proof.Proofs

/-! ### The buffer commands: what they paint, what they reject, and what GET_PIXEL reads back -/

namespace Sys2Proof.Machine

open Sys2Proof.Safety

/-- R82: an omitted brightness keeps the record's own. -/
theorem applyBr_eq_getD (old : Level5) (v : Option Level5) : applyBr old v = v.getD old := by
  cases v <;> rfl

/-- R88, R90: the record painted, written out. -/
theorem painted_eq (r g b : Byte) (v : Option Level5) (q : Pixel) : painted (r, g, b) v q = ⟨r, g, b, v.getD q.br⟩ := by
  rw [painted, applyBr_eq_getD]

/-- R80: the failing checks of a pair are those of both. -/
@[simp] theorem failuresOf_bothChecked {α β : Type} (a : Checked α) (b : Checked β) :
    failuresOf (bothChecked a b) = failuresOf a ++ failuresOf b := by
  cases a <;> cases b <;> simp [bothChecked, failuresOf]

/-- R80, R136: the failure reported is one of the failing checks, so its kind is any kind they agree on. -/
theorem rejects_raiseError (src : Source) (op : Op) (f : Failure) (fs : List Failure) (s : State) :
    rejects src op (f :: fs) s (.next (raiseError src op f fs s)) := by
  have hmem := reportedFailure_mem f fs s.draws
  exact ⟨_, _, rfl, hmem, fun htype => htype _ hmem, fun hrange => hrange _ hmem⟩

/-- R80: a command that raises the error of its failing checks, of which there is one, rejects its operands. -/
theorem rejects_of_failures {α : Type} {c : Checked α} {src : Source} {op : Op} {s : State} {out : Result}
    (hfail : failuresOf c ≠ []) (hbad : ∀ f fs, c = .bad f fs → out = .next (raiseError src op f fs s)) :
    rejects src op (failuresOf c) s out := by
  cases c with
  | ok v => exact absurd rfl hfail
  | bad f fs =>
    rw [hbad f fs rfl]
    exact rejects_raiseError src op f fs s

/-- R85: GET_PIXEL after a command that wrote the buffer and one event. -/
theorem getPixel_after_bufferCommand {s t : State} {e : Event} {a : HostValue} {i : Fin Config.pixels} (src : Source)
    (hs : Accepting s) (ht : t = { s with buf := t.buf, trace := s.trace ++ [e] }) (hi : chkIndex a = .ok i) :
    ∃ u, exec (.getPixel src a) t = .next u ∧
      u.trace = s.trace ++ [e, .ret src .getPixel (pixelValue t.buf[i])] := by
  have hacc : Accepting t := ⟨(congrArg State.refused ht).trans hs.1, (congrArg State.xs ht).trans hs.2⟩
  have htrace : t.trace = s.trace ++ [e] := congrArg State.trace ht
  refine ⟨_, Proofs.getPixelReturnsTheRecord src a i t hacc hi, ?_⟩
  simp [htrace, pixelValue]

end Sys2Proof.Machine

namespace Sys2Proof.Proofs

open Sys2Proof.Machine Sys2Proof.Safety

/-- Settles O16: every record is blackened. -/
theorem clearBlackensEveryPixel : Obligations.ClearBlackensEveryPixel := by
  rintro src s ⟨hr, hx⟩
  exact ⟨_, accept_of_accepting hr hx, fun i => mapPixels_get blackened s.buf i, rfl⟩

/-- Settles O18: every record is painted. -/
theorem setAllPaintsEveryPixel : Obligations.SetAllPaintsEveryPixel := by
  intro src a0 a1 a2 a3 r g b v s hs h0 h1 h2 h3
  refine ⟨_, exec_setAll_of_ok hs (paintChecks_of_ok h0 h1 h2 h3), fun i => ?_, rfl⟩
  rw [emit_buf, mapPixels_get, painted_eq]

/-- Settles O19: the record at the index is painted. -/
theorem setPixelPaintsOnePixel : Obligations.SetPixelPaintsOnePixel := by
  intro src a0 a1 a2 a3 a4 i r g b v s hs h0 h1 h2 h3 h4
  refine ⟨_, exec_setPixel_of_ok hs h0 (paintChecks_of_ok h1 h2 h3 h4), fun m => ?_, rfl⟩
  rw [emit_buf, bufWrite_get, painted_eq]

/-- Settles O20: every record takes the level. -/
theorem setBrightnessSetsEveryLevel : Obligations.SetBrightnessSetsEveryLevel := by
  rintro src a n s ⟨hr, hx⟩ hn
  have hexec : exec (.setBrightness src a) s = _ := accept_of_accepting hr hx
  rw [hn] at hexec
  exact ⟨_, hexec, fun i => mapPixels_get (fun q => { q with br := n }) s.buf i, rfl⟩

/-- Settles O22: an accepted command evaluates its checks together, and raises the error of those that fail. -/
theorem invalidOperandsWriteNothing : Obligations.InvalidOperandsWriteNothing := by
  rintro src a0 a1 a2 a3 a4 s ⟨hr, hx⟩
  refine ⟨fun hfail => ?getPixel, fun hfail => ?setBrightness, fun fails hfails hfail => ?setAll,
    fun fails hfails hfail => ?setPixel⟩
  case getPixel =>
    exact rejects_of_failures hfail fun f fs hbad => (accept_of_accepting hr hx).trans (by rw [hbad])
  case setBrightness =>
    exact rejects_of_failures hfail fun f fs hbad => (accept_of_accepting hr hx).trans (by rw [hbad])
  case setAll =>
    obtain rfl : fails = failuresOf (bothChecked (chkColours a0 a1 a2) (chkBrOpt a3)) := by simp [hfails, chkColours]
    exact rejects_of_failures hfail fun f fs hbad => (accept_of_accepting hr hx).trans (by rw [hbad])
  case setPixel =>
    obtain rfl : fails = failuresOf (bothChecked (chkIndex a0) (bothChecked (chkColours a1 a2 a3) (chkBrOpt a4))) := by
      simp [hfails, chkColours]
    exact rejects_of_failures hfail fun f fs hbad => (accept_of_accepting hr hx).trans (by rw [hbad])

/-- Settles O31: GET_PIXEL reads the record SET_PIXEL painted, its level the one held before. -/
theorem setPixelThenGetPixelReadsBack : Obligations.SetPixelThenGetPixelReadsBack := by
  intro src src' a0 a1 a2 a3 i r g b s hs h0 h1 h2 h3
  obtain ⟨t, hset, hbuf, ht⟩ := setPixelPaintsOnePixel src a0 a1 a2 a3 .absent i r g b none s hs h0 h1 h2 h3 rfl
  obtain ⟨u, hget, htrace⟩ := getPixel_after_bufferCommand src' hs ht h0
  rw [hbuf, if_pos rfl] at htrace
  exact ⟨t, u, hset, hget, htrace⟩

/-- Settles O32: GET_PIXEL reads the level SET_BRIGHTNESS gave every record. -/
theorem setBrightnessThenGetPixelReadsBack : Obligations.SetBrightnessThenGetPixelReadsBack := by
  intro src src' a a' n i s hs hn hi
  obtain ⟨t, hset, hbuf, ht⟩ := setBrightnessSetsEveryLevel src a n s hs hn
  obtain ⟨u, hget, htrace⟩ := getPixel_after_bufferCommand src' hs ht hi
  rw [hbuf] at htrace
  exact ⟨t, u, hset, hget, htrace⟩

/-- Settles O21: an accepted PIXEL_COUNT reports the constant `N`. -/
theorem pixelCountReturnsTheCount : Obligations.PixelCountReturnsTheCount :=
  fun _ _ hs => accept_of_accepting hs.1 hs.2

/-- Settles O27: each of the 32 entries is computed. -/
theorem roundThreeTable : Obligations.RoundThreeTable := by
  unfold Obligations.RoundThreeTable
  decide

end Sys2Proof.Proofs

/-! ### ENC's dispatch, and the start, acquisition and completion of a flush -/

namespace Sys2Proof.Machine

open Sys2Proof.Safety

theorem encStep_of_idle {s : State} (hp : s.phase = .idle) : encStep s = encDispatch s := by
  simp [encStep, encFetch, encInternal, hp]

/-- R95: the head of the queue becomes the current job. -/
theorem encStep_dispatch {s : State} {job : Job} {rest : List Job} (hp : s.phase = .idle) (hq : s.queue = job :: rest) :
    encStep s = .next { s with cur := some job, queue := rest, phase := firstPhase job } := by
  rw [encStep_of_idle hp, encDispatch, hq]

/-- R99, R100, R142: a line acquired, written out. -/
theorem acquireLine_of_ok {l : Line} {s : State} (h : gpioAnswer s = .ok) :
    acquireLine l s = setLvl l .low (setHs l .acq { s with
      trace := s.trace ++ [.acq l .ok], answers := s.answers.tail, draws := s.draws + 1 }) := by
  rw [acquireLine, gpioAcquire, h]
  rfl

/-- R142: a failed acquisition leaves the line as it is. -/
theorem acquireLine_of_fail {l : Line} {s : State} (h : gpioAnswer s = .fail) :
    acquireLine l s = { s with
      trace := s.trace ++ [.acq l .fail], answers := s.answers.tail, draws := s.draws + 1 } := by
  rw [acquireLine, gpioAcquire, h]
  rfl

/-- R99: `F_ACQ_CLK` of a flush. -/
theorem encStep_acqClk {s : State} {n : Nat} {o : Origin} (hp : s.phase = .fAcqClk) (hc : s.cur = some (.flush n o)) :
    encStep s =
      if s.hsClk = .rel ∨ s.hsDat = .rel then .next (endJob n (.err .notAcquired) s)
      else if s.hsClk = .unacq then .next (afterAcquire n .clk .fAcqDat (gpioAnswer s) (acquireLine .clk s))
      else .next { s with phase := .fAcqDat } :=
  (encStep_of_fAcqClk hp).trans (inFlush_of_flush hc)

/-- R100: `F_ACQ_DAT` of a flush. -/
theorem encStep_acqDat {s : State} {n : Nat} {o : Origin} (hp : s.phase = .fAcqDat) (hc : s.cur = some (.flush n o)) :
    encStep s =
      if s.hsDat = .unacq then .next (afterAcquire n .dat .fSofDat (gpioAnswer s) (acquireLine .dat s))
      else .next { s with phase := .fSofDat } :=
  (encStep_of_fAcqDat hp).trans (inFlush_of_flush hc)

/-- R99, R112: a failed acquisition ends the job, its two events in one step. -/
theorem afterAcquire_of_fail {l : Line} {s : State} (n : Nat) (next : Phase) (h : gpioAnswer s = .fail) :
    afterAcquire n l next (gpioAnswer s) (acquireLine l s) = { s with
      cur := none, phase := .idle, trace := s.trace ++ [.acq l .fail, .done n (.err (.acquireFailed l))],
      answers := s.answers.tail, draws := s.draws + 1 } := by
  rw [h, afterAcquire_fail, acquireLine_of_fail h]
  simp [endJob, emit]

end Sys2Proof.Machine

namespace Sys2Proof.Proofs

open Sys2Proof.Machine Sys2Proof.Safety

/-- Settles O39: ENC is ready exactly while it is busy, and in `IDLE` it dispatches. -/
theorem dispatchStartsTheHeadJob : Obligations.DispatchStartsTheHeadJob := by
  refine fun s hp _ => ⟨fun job rest hq => ⟨enc_mem_readyAgents.mpr (.inr (by simp [hq])), ?_⟩, fun hq h => ?_⟩
  · rw [encStep_dispatch hp hq]
    cases job <;> rfl
  · exact (enc_mem_readyAgents.mp h).elim (absurd hp) (absurd hq)

/-- Settles O40: both phases have one step, that of a flush job. -/
theorem flushStartsWithSnapshotAndCompletes : Obligations.FlushStartsWithSnapshotAndCompletes :=
  fun _ _ _ hc => ⟨fun hp => (encStep_of_fStart hp).trans (inFlush_of_flush hc),
    fun hp => (encStep_of_fDone hp).trans (inFlush_of_flush hc)⟩

/-- Settles O41: by the handles and the outcome, the branches of the two phases. -/
theorem acquirePhases : Obligations.AcquirePhases := by
  intro s n o hc
  refine ⟨fun hp hrel => ?released, fun hp hclk hdat hg => ?clkOk, fun hp hclk hdat hg => ?clkFail,
    fun hp hclk hdat => ?clkHeld, fun hp hdat hg => ?datOk, fun hp hdat hg => ?datFail, fun hp hdat => ?datHeld⟩
  case released =>
    rw [encStep_acqClk hp hc, if_pos hrel]
    rfl
  case clkOk =>
    rw [encStep_acqClk hp hc, if_neg (by simp [hclk, hdat]), if_pos hclk, hg, afterAcquire_ok, acquireLine_of_ok hg]
    rfl
  case clkFail =>
    rw [encStep_acqClk hp hc, if_neg (by simp [hclk, hdat]), if_pos hclk, afterAcquire_of_fail n .fAcqDat hg]
  case clkHeld =>
    rw [encStep_acqClk hp hc, if_neg (by simp [hclk, hdat]), if_neg (by simp [hclk])]
  case datOk =>
    rw [encStep_acqDat hp hc, if_pos hdat, hg, afterAcquire_ok, acquireLine_of_ok hg]
    rfl
  case datFail =>
    rw [encStep_acqDat hp hc, if_pos hdat, afterAcquire_of_fail n .fSofDat hg]
  case datHeld =>
    rw [encStep_acqDat hp hc, if_neg hdat]

end Sys2Proof.Proofs

/-! ### A failed write, and the release of lines not held -/

namespace Sys2Proof.Machine

open Sys2Proof.Safety

/-- R112, R143: a failed write and the end of its job, written out. -/
theorem endJob_gpioWrite_of_fail {l : Line} {v : Bool} {s : State} (n : Nat) (st : Status) (h : gpioAnswer s = .fail) :
    endJob n st (gpioWrite l v s) = setLvl l .x { s with
      trace := s.trace ++ [.wr l v .fail, .done n st], cur := none, phase := .idle,
      answers := s.answers.tail, draws := s.draws + 1 } := by
  rw [gpioWrite, h]
  cases l <;> simp [endJob, emit, setLvl, afterDraw]

/-- R50: with no command on the port a job that waits makes ENC the agent that steps. -/
theorem step_of_queued {s : State} {job : Job} {rest : List Job} (h : OnlyEncoder s) (hq : s.queue = job :: rest) :
    step s = encStep (advanceTurn s) := by
  obtain ⟨hl, hport⟩ := h
  refine step_of_enc hl ?_
  simp [chooseAgent, readyAgents_eq, hport, nextCommands, busy, hq]

theorem encStep_of_rClk {s : State} (hp : s.phase = .rClk) : encStep s = encRelClk s := by
  simp [encStep, encFetch, encInternal, hp]

theorem encStep_of_rDat {s : State} (hp : s.phase = .rDat) : encStep s = encRelDat s := by
  simp [encStep, encFetch, encInternal, hp]

theorem encStep_of_rDone {s : State} (hp : s.phase = .rDone) : encStep s = encRelDone s := by
  simp [encStep, encFetch, encInternal, hp]

/-- R95: the dispatch of the head of the queue. -/
theorem runs_dispatch {s : State} {job : Job} {rest : List Job} (h : OnlyEncoder s) (hp : s.phase = .idle)
    (hq : s.queue = job :: rest) :
    Runs 1 s { s with cur := some job, queue := rest, phase := firstPhase job, turn := s.turn + 1 } :=
  .one ((step_of_queued h hq).trans (encStep_dispatch (s := advanceTurn s) hp hq))

/-- R123: `R_CLK` of a line not held. -/
theorem runs_rClk_unheld {s : State} {n : Nat} {o : Origin} (h : OnlyEncoder s) (hp : s.phase = .rClk)
    (hc : s.cur = some (.release n o)) (hclk : s.hsClk ≠ .acq) :
    Runs 1 s { s with rerr := none, phase := .rDat, turn := s.turn + 1 } := by
  refine .one ((step_of_onlyEncoder h (by simp [hp])).trans ?_)
  have hrel : encRelClk (advanceTurn s) = _ := inRelease_of_release hc
  rw [encStep_of_rClk (s := advanceTurn s) hp, hrel,
    releasePhase_unheld (l := .clk) (s := { advanceTurn s with rerr := none }) hclk]
  rfl

/-- R124: `R_DAT` of a line not held. -/
theorem runs_rDat_unheld {s : State} {n : Nat} {o : Origin} (h : OnlyEncoder s) (hp : s.phase = .rDat)
    (hc : s.cur = some (.release n o)) (hdat : s.hsDat ≠ .acq) :
    Runs 1 s { s with phase := .rDone, turn := s.turn + 1 } := by
  refine .one ((step_of_onlyEncoder h (by simp [hp])).trans ?_)
  have hrel : encRelDat (advanceTurn s) = _ := inRelease_of_release hc
  rw [encStep_of_rDat (s := advanceTurn s) hp, hrel, releasePhase_unheld (l := .dat) (s := advanceTurn s) hdat]
  rfl

/-- R125: `R_DONE`. -/
theorem runs_rDone {s : State} {n : Nat} {o : Origin} (h : OnlyEncoder s) (hp : s.phase = .rDone)
    (hc : s.cur = some (.release n o)) : Runs 1 s (endJob n (releaseStatus s.rerr) (advanceTurn s)) := by
  refine .one ((step_of_onlyEncoder h (by simp [hp])).trans ?_)
  exact (encStep_of_rDone (s := advanceTurn s) hp).trans (inRelease_of_release hc)

end Sys2Proof.Machine

namespace Sys2Proof.Proofs

open Sys2Proof.Machine Sys2Proof.Safety

/-- Settles O45: the frame instruction issues its phase's write, whose failure ends the job. -/
theorem writeFailureEndsTheFlush : Obligations.WriteFailureEndsTheFlush := by
  intro s q n o i l v hl hc ha hw hg
  obtain ⟨hfetch, f, hwrite⟩ := writeAt_of_phaseWrite hw
  rw [exec_of_writeAt hwrite hfetch hl hc, writePhase_of_acq ha, hg]
  exact congrArg _ (endJob_gpioWrite_of_fail n _ hg)

/-- Settles O50: the dispatch and the three release phases, none of which has a line to release. -/
theorem releaseOfUnheldLinesIsANoOp : Obligations.ReleaseOfUnheldLinesIsANoOp := by
  intro s n o rest h hp hq hclk hdat
  have hdispatch := runs_dispatch h hp hq
  have hrClk := runs_rClk_unheld (s := { s with
    cur := some (.release n o), queue := rest, phase := .rClk, turn := s.turn + 1 }) h rfl rfl hclk
  have hrDat := runs_rDat_unheld (s := { s with
    cur := some (.release n o), queue := rest, phase := .rDat, rerr := none, turn := s.turn + 2 }) h rfl rfl hdat
  have hrDone := runs_rDone (s := { s with
    cur := some (.release n o), queue := rest, phase := .rDone, rerr := none, turn := s.turn + 3 }) h rfl rfl
  have hrun : Runs 4 s _ := hdispatch.trans (hrClk.trans (hrDat.trans hrDone))
  rw [hp]
  exact hrun

end Sys2Proof.Proofs

/-! ### In a state that meets the invariant every agent's step answers a next state -/

namespace Sys2Proof.Machine

open Sys2Proof.Safety

/-- R146: a command is refused or has its effect, so it answers if its effect does. -/
theorem accept_answers {s : State} {k : Result} (hl : Live s) (hk : ∃ t, k = .next t) : ∃ t, accept s k = .next t := by
  obtain ⟨hr, hx⟩ := hl
  cases hs : s.xs with
  | notStarted => exact hk.imp fun t ht => (accept_of_accepting hr hs).trans ht
  | running => exact ⟨_, accept_of_running hr hs⟩
  | done => exact absurd hs hx

/-- R80, R146: every command answers, whatever its operands. -/
theorem exec_command_answers {i : Instr} {src : Source} {s : State} (hi : i.source? = some src) (hl : Live s) :
    ∃ t, exec i s = .next t := by
  cases i with
  | clear _ => exact accept_answers hl ⟨_, rfl⟩
  | getPixel _ a => exact accept_answers hl (by cases chkIndex a <;> exact ⟨_, rfl⟩)
  | setAll _ r g b br =>
    exact accept_answers hl (by cases bothChecked (chkColours r g b) (chkBrOpt br) <;> exact ⟨_, rfl⟩)
  | setPixel _ a r g b br =>
    exact accept_answers hl
      (by cases bothChecked (chkIndex a) (bothChecked (chkColours r g b) (chkBrOpt br)) <;> exact ⟨_, rfl⟩)
  | setBrightness _ br => exact accept_answers hl (by cases chkBrReq br <;> exact ⟨_, rfl⟩)
  | setClearOnExit _ a => exact accept_answers hl (by cases chkBoolOpt a <;> exact ⟨_, rfl⟩)
  | showFrame _ => exact accept_answers hl ⟨_, rfl⟩
  | pixelCount _ => exact accept_answers hl ⟨_, rfl⟩
  | release _ => exact accept_answers hl ⟨_, rfl⟩
  | exit src =>
    have hexec : exec (.exit src) s = _ := unlessRefused_of_none hl.1
    rw [hexec]
    cases s.xs <;> exact ⟨_, rfl⟩
  | _ => cases hi

/-- R59, R73: an issuing agent's step answers, whether its command decodes or not. -/
theorem issueStep_answers {s : State} (c : RawCommand) (hl : Live s) : ∃ t, issueStep c s = .next t := by
  cases hd : decodeCommand c with
  | ok i =>
    rw [issueStep_of_decode s hd]
    exact exec_command_answers (decodeCommand_source hd) hl
  | error e => exact ⟨_, by rw [issueStep, hd]⟩

/-- R101 to R110: in a write phase a flush is in progress, both lines are held, and ENC is at a frame instruction. -/
theorem WriteAt.ready {s : State} {l : Line} {v : Bool} {f : State → State} (h : WriteAt s l v f)
    (hj : Safety.jobFits s.phase s.cur) (hf : Safety.phaseFits s) :
    (∃ n o, s.cur = some (.flush n o)) ∧ bothHeld s ∧ ∃ i, encFetch s = some i := by
  cases h with
  | sofDat hp => simp only [Safety.jobFits, Safety.phaseFits, hp] at hj hf; exact ⟨hj, hf.1, _, encFetch_sof (.inl hp)⟩
  | sofHi hp => simp only [Safety.jobFits, Safety.phaseFits, hp] at hj hf; exact ⟨hj, hf.1, _, encFetch_sof (.inr (.inl hp))⟩
  | sofLo hp => simp only [Safety.jobFits, Safety.phaseFits, hp] at hj hf; exact ⟨hj, hf.1, _, encFetch_sof (.inr (.inr hp))⟩
  | eofDat hp => simp only [Safety.jobFits, Safety.phaseFits, hp] at hj hf; exact ⟨hj, hf, _, encFetch_eof (.inl hp)⟩
  | eofHi hp => simp only [Safety.jobFits, Safety.phaseFits, hp] at hj hf; exact ⟨hj, hf.1, _, encFetch_eof (.inr (.inl hp))⟩
  | eofLo hp => simp only [Safety.jobFits, Safety.phaseFits, hp] at hj hf; exact ⟨hj, hf.1, _, encFetch_eof (.inr (.inr hp))⟩
  | bitDat hp =>
    simp only [Safety.jobFits, Safety.phaseFits, hp] at hj hf
    obtain ⟨hb, _, hw, -⟩ := hf
    exact ⟨hj, hb, _, encFetch_bit hw (.inl hp)⟩
  | bitHi hp =>
    simp only [Safety.jobFits, Safety.phaseFits, hp] at hj hf
    obtain ⟨hb, ⟨_, hw, -⟩, -⟩ := hf
    exact ⟨hj, hb, _, encFetch_bit hw (.inr (.inl hp))⟩
  | bitLo hp =>
    simp only [Safety.jobFits, Safety.phaseFits, hp] at hj hf
    obtain ⟨hb, ⟨_, hw, -⟩, -⟩ := hf
    exact ⟨hj, hb, _, encFetch_bit hw (.inr (.inr hp))⟩

/-- R112, R143: a write phase answers on either outcome. -/
theorem WriteAt.answers {s : State} {l : Line} {v : Bool} {f : State → State} (h : WriteAt s l v f) (hl : Live s)
    (hj : Safety.jobFits s.phase s.cur) (hf : Safety.phaseFits s) : ∃ t, encStep s = .next t := by
  obtain ⟨⟨n, o, hc⟩, ⟨hclk, hdat⟩, i, hi⟩ := h.ready hj hf
  have hheld : s.hs l = .acq := by cases l <;> assumption
  exact ⟨_, by rw [encStep_of_fetch hi, exec_of_writeAt h hi hl hc, writePhase_of_acq hheld]⟩

theorem encStep_of_xDone {s : State} (hp : s.phase = .xDone) : encStep s = encExitDone s := by
  simp [encStep, encFetch, encInternal, hp]

/-- R95 to R129: no phase that its job and its facts fit is stuck. -/
theorem encStep_answers {s : State} (hl : Live s) (hj : jobFits s.phase s.cur) (hf : phaseFits s) :
    ∃ t, encStep s = .next t := by
  have write {l : Line} {v : Bool} {f : State → State} (h : WriteAt s l v f) := h.answers hl hj hf
  cases hp : s.phase with
  | fSofDat => exact write (.sofDat hp)
  | fSofHi => exact write (.sofHi hp)
  | fSofLo => exact write (.sofLo hp)
  | fBitDat => exact write (.bitDat hp)
  | fBitHi => exact write (.bitHi hp)
  | fBitLo => exact write (.bitLo hp)
  | fEofDat => exact write (.eofDat hp)
  | fEofHi => exact write (.eofHi hp)
  | fEofLo => exact write (.eofLo hp)
  | idle =>
    cases hq : s.queue with
    | nil => exact ⟨s, by rw [encStep_of_idle hp, encDispatch, hq]⟩
    | cons job rest => exact ⟨_, encStep_dispatch hp hq⟩
  | fStart =>
    obtain ⟨n, o, hc⟩ := hp ▸ hj
    exact ⟨_, (encStep_of_fStart hp).trans (inFlush_of_flush hc)⟩
  | fAcqClk =>
    obtain ⟨n, o, hc⟩ := hp ▸ hj
    rw [encStep_acqClk hp hc]
    split
    · exact ⟨_, rfl⟩
    · split <;> exact ⟨_, rfl⟩
  | fAcqDat =>
    obtain ⟨n, o, hc⟩ := hp ▸ hj
    rw [encStep_acqDat hp hc]
    split <;> exact ⟨_, rfl⟩
  | fPxLoad =>
    obtain ⟨n, o, hc⟩ := hp ▸ hj
    simp only [phaseFits, hp] at hf
    exact ⟨_, (encStep_of_fetch (encFetch_load hf.2 hp)).trans (exec_ledwOf_load _ hl hc hp)⟩
  | fDone =>
    obtain ⟨n, o, hc⟩ := hp ▸ hj
    exact ⟨_, (encStep_of_fDone hp).trans (inFlush_of_flush hc)⟩
  | rClk =>
    obtain ⟨n, o, hc⟩ := hp ▸ hj
    exact ⟨_, (encStep_of_rClk hp).trans (inRelease_of_release hc)⟩
  | rDat =>
    obtain ⟨n, o, hc⟩ := hp ▸ hj
    exact ⟨_, (encStep_of_rDat hp).trans (inRelease_of_release hc)⟩
  | rDone =>
    obtain ⟨n, o, hc⟩ := hp ▸ hj
    exact ⟨_, (encStep_of_rDone hp).trans (inRelease_of_release hc)⟩
  | xDone =>
    rw [hp] at hj
    have hc : s.cur = some .exitMark := hj
    exact ⟨_, by rw [encStep_of_xDone hp, encExitDone, hc]⟩

end Sys2Proof.Machine

namespace Sys2Proof.Proofs

open Sys2Proof.Machine Sys2Proof.Safety

/-- Settles O6: the exit sequence has ended, no agent has a step, or the one chosen answers. -/
theorem stepNeverStopsInInvariantStates : Obligations.StepNeverStopsInInvariantStates := by
  intro s hi hr
  by_cases hx : s.xs = .done
  · exact ⟨s, by simp [step, hr, terminated, hx]⟩
  · have hl : Live s := ⟨hr, hx⟩
    cases hc : chooseAgent s with
    | none => exact ⟨s, by simp [step, hr, terminated, hx, hc]⟩
    | some a =>
      cases a with
      | issuer c =>
        rw [step_of_issuer hl hc]
        exact issueStep_answers c hl
      | enc =>
        obtain ⟨-, -, -, -, -, -, hj, hf, -⟩ := inv_advanceTurn hi
        rw [step_of_enc hl hc]
        exact encStep_answers (s := advanceTurn s) hl hj hf

end Sys2Proof.Proofs

/-! ### A job in progress ends -/

namespace Sys2Proof.Machine

open Sys2Proof.Safety

/-- R107: the bits of the current word still to be sent. -/
def bitsLeft (s : State) : Nat := 32 - (8 * s.k + s.j)

/-- R95 to R129: the steps of ENC until the job in progress ends, if no GPIO action fails: two for a clock pulse, three for a bit,
97 for a word, 74 from the end frame on. -/
def stepsLeft (s : State) : Nat :=
  match s.phase with
  | .idle => 0
  | .fStart => 918
  | .fAcqClk => 917
  | .fAcqDat => 916
  | .fSofDat => 915
  | .fSofHi => 2 * (32 - s.cnt) + 850
  | .fSofLo => 2 * (32 - s.cnt) - 1 + 850
  | .fPxLoad => 97 * (8 - s.p) + 74
  | .fBitDat => 3 * bitsLeft s + 97 * (7 - s.p) + 74
  | .fBitHi => 3 * bitsLeft s - 1 + 97 * (7 - s.p) + 74
  | .fBitLo => 3 * bitsLeft s - 2 + 97 * (7 - s.p) + 74
  | .fEofDat => 74
  | .fEofHi => 2 * (36 - s.cnt) + 1
  | .fEofLo => 2 * (36 - s.cnt) - 1 + 1
  | .fDone => 1
  | .rClk => 3
  | .rDat => 2
  | .rDone => 1
  | .xDone => 1

theorem stepsLeft_pos {s : State} (h : s.phase ≠ .idle) : 0 < stepsLeft s := by
  unfold stepsLeft
  cases hp : s.phase with
  | idle => exact absurd hp h
  | _ => simp only; omega

theorem stepsLeft_le (s : State) : stepsLeft s ≤ 918 := by
  unfold stepsLeft bitsLeft
  cases s.phase with
  | _ => simp only; omega

theorem bitsLeft_pos {s : State} (h : wordFits s) : 0 < bitsLeft s := by
  obtain ⟨-, -, hk, hj, -⟩ := h
  unfold bitsLeft
  omega

/-- R107: from a bit's last write to the next bit, word or the end frame. -/
theorem stepsLeft_advanceBit {s u : State} (hp : s.phase = .fBitLo) (hw : wordFits s) (hup : u.p = s.p) (huk : u.k = s.k)
    (huj : u.j = s.j) : stepsLeft (advanceBit u) < stepsLeft s := by
  obtain ⟨hlt, -, hk, hj, -⟩ := hw
  have hs : stepsLeft s = 3 * bitsLeft s - 2 + 97 * (7 - s.p) + 74 := by rw [stepsLeft, hp]
  obtain ⟨hj', e⟩ | ⟨hj', hk', e⟩ | ⟨hj', hk', hp', e⟩ | ⟨hj', hk', hp', e⟩ := advanceBit_cases u <;>
    rw [e, hs] <;> simp only [stepsLeft, bitsLeft, hup, huk, huj] at * <;> omega

/-- R101 to R110: a successful write brings the end of the job nearer. -/
theorem WriteAt.stepsLeft_lt {s : State} {l : Line} {v : Bool} {f : State → State} (h : WriteAt s l v f)
    (hf : Safety.phaseFits s) : stepsLeft (f (gpioWrite l v s)) < stepsLeft s := by
  cases h with
  | sofDat hp => simp [stepsLeft, hp, startPulses]
  | sofHi hp =>
    simp only [Safety.phaseFits, hp] at hf
    obtain ⟨-, (hcnt : s.cnt < 32), -⟩ := hf
    simp only [stepsLeft, hp, gpioWrite_cnt]
    omega
  | sofLo hp =>
    simp only [Safety.phaseFits, hp] at hf
    obtain ⟨-, (hcnt : s.cnt < 32), -, -, hp0⟩ := hf
    obtain ⟨-, e⟩ | ⟨-, e⟩ := countPulse_cases Config.sofPulses .fSofHi .fPxLoad (gpioWrite .clk false s) <;>
      simp only [stepsLeft, hp, e, gpioWrite_cnt, gpioWrite_p, hp0] <;> omega
  | bitDat hp =>
    simp only [Safety.phaseFits, hp] at hf
    obtain ⟨-, hw⟩ := hf
    have hb := bitsLeft_pos hw
    simp only [stepsLeft, bitsLeft, hp, gpioWrite_p, gpioWrite_k, gpioWrite_j] at hb ⊢
    omega
  | bitHi hp =>
    simp only [Safety.phaseFits, hp] at hf
    obtain ⟨-, hw, -⟩ := hf
    have hb := bitsLeft_pos hw
    simp only [stepsLeft, bitsLeft, hp, gpioWrite_p, gpioWrite_k, gpioWrite_j] at hb ⊢
    omega
  | bitLo hp =>
    simp only [Safety.phaseFits, hp] at hf
    obtain ⟨-, hw, -⟩ := hf
    exact stepsLeft_advanceBit hp hw (by simp) (by simp) (by simp)
  | eofDat hp => simp [stepsLeft, hp, startPulses]
  | eofHi hp =>
    simp only [Safety.phaseFits, hp] at hf
    obtain ⟨-, (hcnt : s.cnt < 36), -⟩ := hf
    simp only [stepsLeft, hp, gpioWrite_cnt]
    omega
  | eofLo hp =>
    simp only [Safety.phaseFits, hp] at hf
    obtain ⟨-, (hcnt : s.cnt < 36), -⟩ := hf
    obtain ⟨-, e⟩ | ⟨-, e⟩ := countPulse_cases Config.eofPulses .fEofHi .fDone (gpioWrite .clk false s) <;>
      simp only [stepsLeft, hp, e, gpioWrite_cnt] <;> omega

/-- R99, R100: an acquisition leads to the next phase or ends the job. -/
theorem stepsLeft_acquire {s : State} (n : Nat) (l : Line) {next : Phase} (hp : s.phase ≠ .idle)
    (hnext : ∀ u : State, u.phase = next → stepsLeft u < stepsLeft s) :
    stepsLeft (afterAcquire n l next (gpioAnswer s) (acquireLine l s)) < stepsLeft s := by
  cases gpioAnswer s with
  | ok => exact hnext _ rfl
  | fail => exact stepsLeft_pos hp

/-- R120: every step of a busy ENC brings the end of the job in progress nearer. -/
theorem EncMove.stepsLeft_lt {s t : State} (h : EncMove s t) (hp : s.phase ≠ .idle) (hf : Safety.phaseFits s) :
    stepsLeft t < stepsLeft s := by
  cases h with
  | quiet h _ => exact absurd h hp
  | dispatch _ _ h _ => exact absurd h hp
  | start _ _ h _ => simp [stepsLeft, h]
  | acquireClk n o h _ _ _ => exact stepsLeft_acquire n .clk hp fun u hu => by simp [stepsLeft, h, hu]
  | acquireDat n o h _ _ => exact stepsLeft_acquire n .dat hp fun u hu => by simp [stepsLeft, h, hu]
  | reuseClk _ _ h _ _ _ => simp [stepsLeft, h]
  | reuseDat _ _ h _ _ => simp [stepsLeft, h]
  | load n o q h _ _ =>
    simp only [Safety.phaseFits, h] at hf
    obtain ⟨-, (hlt : s.p < 8)⟩ := hf
    simp only [stepsLeft, bitsLeft, h, loadWord]
    omega
  | wrote n o l v f hw _ _ _ => exact hw.stepsLeft_lt hf
  | relClk _ _ h _ => simp [stepsLeft, h]
  | relDat _ _ h _ => simp [stepsLeft, h]
  | _ => exact stepsLeft_pos hp

/-- R34, R36: while a job is in progress ENC leaves the queue alone, and the exit sequence ends only with its job. -/
theorem EncMove.keeps_queue {s t : State} (h : EncMove s t) (hp : s.phase ≠ .idle) :
    t.queue = s.queue ∧ (t.phase ≠ .idle → t.xs = s.xs) := by
  cases h with
  | quiet h _ => exact absurd h hp
  | dispatch _ _ h _ => exact absurd h hp
  | acquireClk n o _ _ _ _ => cases gpioAnswer s <;> simp
  | acquireDat n o _ _ _ => cases gpioAnswer s <;> simp
  | wrote n o l v f hw _ _ _ =>
    obtain ⟨_, _, _, _, _, _, hf⟩ := hw.next_eq (gpioWrite l v s)
    simp [hf]
  | writeFailed n o l v f _ _ _ _ => simp
  | relClk n o _ _ => simp
  | relDat n o _ _ => simp
  | exitDone _ _ => exact ⟨rfl, fun h => absurd rfl h⟩
  | _ => exact ⟨rfl, fun _ => rfl⟩

/-- R148: a step of the machine while only ENC has one and a job is in progress. -/
theorem step_of_jobInProgress {s : State} (hi : Inv s) (h : OnlyEncoder s) (hp : s.phase ≠ .idle) :
    ∃ t, step s = .next t ∧ EncMove (advanceTurn s) t := by
  obtain ⟨t, ht⟩ := Proofs.stepNeverStopsInInvariantStates s hi h.1.1
  exact ⟨t, ht, encStep_move ((step_of_onlyEncoder h hp).symm.trans ht)⟩

/-- R120: the job in progress, if there is one, ends within the steps left. -/
theorem runs_to_idle {s : State} (hi : Inv s) (h : s.phase ≠ .idle → OnlyEncoder s) :
    ∃ n t, n ≤ stepsLeft s ∧ Runs n s t ∧ t.phase = .idle ∧ t.cur = none ∧ t.queue = s.queue := by
  induction hm : stepsLeft s using Nat.strong_induction_on generalizing s with
  | _ m ih =>
    by_cases hp : s.phase = .idle
    · have hcur : s.cur = none := by simpa only [jobFits, hp] using hi.job_fits
      exact ⟨0, s, Nat.zero_le _, .refl s, hp, hcur, rfl⟩
    · obtain ⟨⟨hr, hx⟩, hport⟩ := h hp
      obtain ⟨u, hu, hmove⟩ := step_of_jobInProgress hi (h hp) hp
      obtain ⟨-, -, -, hr', hport'⟩ := hmove.keeps_commands
      obtain ⟨hq, hx'⟩ := hmove.keeps_queue hp
      have hlt : stepsLeft u < stepsLeft s := hmove.stepsLeft_lt hp (inv_advanceTurn hi).phase_fits
      obtain ⟨n, t, hn, hrun, hidle, hcur, hqueue⟩ := ih _ (hm ▸ hlt) (hmove.inv (inv_advanceTurn hi))
        (fun hp' => ⟨⟨hr'.trans hr, fun e => hx ((hx' hp').symm.trans e)⟩, hport'.trans hport⟩) rfl
      exact ⟨1 + n, t, by omega, (Runs.one hu).trans hrun, hidle, hcur, hqueue.trans hq⟩

end Sys2Proof.Machine

namespace Sys2Proof.Proofs

open Sys2Proof.Machine Sys2Proof.Safety

/-- Settles O60: there are never more than 918 steps left. -/
theorem everyJobEnds : Obligations.EveryJobEnds := by
  intro s hi h _
  obtain ⟨n, t, hn, hrun⟩ := runs_to_idle hi fun _ => h
  exact ⟨n, t, hn.trans (stepsLeft_le s), hrun⟩

end Sys2Proof.Proofs

/-! ### The exit sequence, and the release of lines held -/

namespace Sys2Proof.Machine

open Sys2Proof.Safety

/-- R68, R131: the word of a record whose colours are 0. -/
theorem ledWord_blackened (q : Pixel) : ledWord (blackened q) = 0xE0000000 ||| (q.br.setWidth 32 <<< 24) := by
  simp [ledWord, blackened, Config.header, BitVec.setWidth_or, BitVec.shiftLeft_or_distrib]

/-- R127: EXIT accepted. -/
theorem exec_exit_of_accepting (src : Source) {s : State} (hs : Accepting s) :
    exec (.exit src) s = .next (exitRelease (exitFlush { s with xs := .running })) := by
  obtain ⟨hr, hx⟩ := hs
  have hexec : exec (.exit src) s = _ := unlessRefused_of_none hr
  rw [hexec, hx]

/-- R128: EXIT delivered again. -/
theorem exec_exit_again (src : Source) {s : State} (hr : s.refused = none) (hx : s.xs ≠ .notStarted) :
    exec (.exit src) s = .next s := by
  have hexec : exec (.exit src) s = _ := unlessRefused_of_none hr
  rw [hexec]
  cases h : s.xs with
  | notStarted => exact absurd h hx
  | running => rfl
  | done => rfl

/-- R146: every command but EXIT has its effect only once it is accepted. -/
theorem exec_command_accepts {i : Instr} {src : Source} (s : State) (hi : i.source? = some src)
    (hexit : ∀ src', i ≠ .exit src') : ∃ k, exec i s = accept s k := by
  cases i with
  | exit src' => exact absurd rfl (hexit src')
  | sof => cases hi
  | ledw _ _ _ _ => cases hi
  | eof => cases hi
  | gpioAcq _ => cases hi
  | gpioWr _ _ => cases hi
  | gpioRel _ => cases hi
  | _ => exact ⟨_, rfl⟩

/-- R123, R144: a line released, written out. -/
theorem releaseLine_eq (l : Line) (s : State) :
    releaseLine l s = setHs l .rel (setLvl l (if gpioAnswer s = .ok then .z else .x) { s with
      trace := s.trace ++ [.rel l (gpioAnswer s)], answers := s.answers.tail, draws := s.draws + 1 }) := by
  rw [releaseLine, gpioRelease]
  cases gpioAnswer s <;> cases l <;> rfl

/-- R123, R124: a failure keeps the line recorded before it, if there is one. -/
theorem rerrAfter_eq (l : Line) (o : GpioOutcome) (rerr : Option Line) :
    rerrAfter l o rerr = if o = .ok then rerr else some (rerr.getD l) := by
  cases o <;> rfl

/-- R123: `R_CLK` of a release job. -/
theorem encStep_rClk {s : State} {n : Nat} {o : Origin} (hp : s.phase = .rClk) (hc : s.cur = some (.release n o)) :
    encStep s = .next { releasePhase .clk { s with rerr := none } with phase := .rDat } :=
  (encStep_of_rClk hp).trans (inRelease_of_release hc)

/-- R124: `R_DAT` of a release job. -/
theorem encStep_rDat {s : State} {n : Nat} {o : Origin} (hp : s.phase = .rDat) (hc : s.cur = some (.release n o)) :
    encStep s = .next { releasePhase .dat s with phase := .rDone } :=
  (encStep_of_rDat hp).trans (inRelease_of_release hc)

/-- R129: `X_DONE` of the exit marker. -/
theorem encStep_xDone {s : State} (hp : s.phase = .xDone) (hc : s.cur = some .exitMark) :
    encStep s = .next { s with xs := .done, trace := s.trace ++ [.exited], cur := none, phase := .idle } := by
  rw [encStep_of_xDone hp, encExitDone, hc]
  rfl

/-- R146: once the exit sequence has ended the machine stays as it is. -/
theorem step_of_terminated {s : State} (hr : s.refused = none) (hx : s.xs = .done) : step s = .next s := by
  simp [step, hr, terminated, hx]

end Sys2Proof.Machine

namespace Sys2Proof.Proofs

open Sys2Proof.Machine Sys2Proof.Safety

/-- Settles O36: accepted, EXIT queues the sequence that `clearOnExit` asks for, and the records it clears are blackened. -/
theorem exitQueuesTheExitSequence : Obligations.ExitQueuesTheExitSequence := by
  refine ⟨fun src s hs => ⟨fun hclear => ?_, fun hclear => ?_⟩, fun src s => exec_exit_again src⟩
  · rw [exec_exit_of_accepting src hs, exitSequence_eq, if_neg (by simp [hclear])]
  · refine ⟨_, exec_exit_of_accepting src hs, ?_⟩
    rw [exitSequence_eq, if_pos (show ({ s with xs := .running } : State).clearOnExit = true from hclear)]
    refine ⟨fun i => ?_, rfl⟩
    rw [mapPixels_get]
    exact ⟨rfl, ledWord_blackened s.buf[i]⟩

/-- Settles O37: acceptance comes before the command's own effect. -/
theorem commandsAfterExitRefused : Obligations.CommandsAfterExitRefused := by
  intro src i s hr hx hi hexit
  obtain ⟨k, hk⟩ := exec_command_accepts s hi hexit
  exact hk.trans (accept_of_running hr hx)

/-- Settles O48: by the handle, and on an acquired line by the outcome. -/
theorem gpioRelReleasesTheLine : Obligations.GpioRelReleasesTheLine := by
  rintro l s ⟨hr, hx⟩
  have hexec : exec (.gpioRel l) s = _ := whenLive_of_live hr hx
  rw [hexec]
  refine ⟨fun hl hg => ?_, fun hl hg => ?_, fun hl => ?_⟩
  · simp only [hl, releaseLine_eq, hg]
    rfl
  · simp only [hl, releaseLine_eq, hg]
    rfl
  · cases hh : s.hs l with
    | acq => exact absurd hh hl
    | unacq => rfl
    | rel => rfl

/-- Settles O49: by the phase, and in the two that release a line by whether it is held. -/
theorem releasePhases : Obligations.ReleasePhases := by
  intro s n o hc
  refine ⟨fun hp hh => ?clkHeld, fun hp hh => ?clkUnheld, fun hp hh => ?datHeld, fun hp hh => ?datUnheld, fun hp => ?done⟩
  case clkHeld =>
    rw [encStep_rClk hp hc, releasePhase_held (l := .clk) (s := { s with rerr := none }) hh, releaseLine_eq, rerrAfter_eq]
    rfl
  case clkUnheld =>
    rw [encStep_rClk hp hc, releasePhase_unheld (l := .clk) (s := { s with rerr := none }) hh]
  case datHeld =>
    rw [encStep_rDat hp hc, releasePhase_held (l := .dat) hh, releaseLine_eq, rerrAfter_eq]
    rfl
  case datUnheld =>
    rw [encStep_rDat hp hc, releasePhase_unheld (l := .dat) hh]
  case done =>
    have hdone : encStep s = .next (endJob n (releaseStatus s.rerr) s) :=
      (encStep_of_rDone hp).trans (inRelease_of_release hc)
    rw [hdone]
    rfl

/-- Settles O51: ENC's step writes `xs`, at which every later step looks first. -/
theorem exitMarkEndsTheSequence : Obligations.ExitMarkEndsTheSequence :=
  fun _ hc hp hr => ⟨_, encStep_xDone hp hc, rfl, step_of_terminated hr rfl⟩

end Sys2Proof.Proofs
